-- ==== Sys2Proof/Word.lean ====
section
/-! DEFINITION. The words the DMB exchanges and the plain names of its interface: ports, sides, channels, draws. -/

namespace Sys2Proof

/-- A command word (R70). -/
abbrev Word := BitVec 32

/-- A register value, a response or the IMM field: 16 bits (R8). -/
abbrev Half := BitVec 16

/-- One sample: a 16-bit pattern read in two's complement (R10). -/
abbrev Sample := BitVec 16

/-- The two command ports (R71). -/
inductive Port where
  | ctrl
  | period
deriving DecidableEq, Repr

/-- The two sides of a channel pair (R11, R51). -/
inductive Side where
  | clean
  | dirty
deriving DecidableEq, Repr

/-- The two channels: 0 is left, 1 is right (R7). -/
inductive Channel where
  | left
  | right
deriving DecidableEq, Repr

/-- One draw of the random source for one lane: `d` in 0..99 and `u` a signed 16-bit integer (R131).
The ranges are carried by the types. -/
structure Draw where
  d : Fin 100
  u : BitVec 16
deriving DecidableEq, Repr, Inhabited

end Sys2Proof
end

