-- ==== Sys2Proof/Config.lean ====
section
/-! DEFINITION. The implementation parameters of R7 and the free values that the spec leaves open. -/

namespace Sys2Proof

namespace Config

/-- `N`, samples per audio block (R7). -/
abbrev N : Nat := 128

/-- `MIX_ONE`, the MIX code of 1.0 and the largest MIX (R7, R23). -/
abbrev mixOne : Nat := 0x8000

/-- `NOISE_MAX` (R7). -/
abbrev noiseMax : Nat := 60

/-- `DENSITY_MAX` (R7). -/
abbrev densityMax : Nat := 100

/-- `DELAY_MIN` (R7). -/
abbrev delayMin : Nat := 1

/-- `DELAY_MAX` (R7). -/
abbrev delayMax : Nat := 300

/-- `BITS_MIN` (R7). -/
abbrev bitsMin : Int := 2

/-- `BITS_MAX` (R7). -/
abbrev bitsMax : Int := 8

/-- The default of the build parameter `FB_MAX` (R7). A build's own value stands in `State.fbMax`
(log entry 5). -/
abbrev fbMaxDefault : BitVec 15 := 0x7FFF#15

/-- `ID_VALUE`, what the ID register reads (R7, R29). -/
abbrev idValue : BitVec 16 := 0xD1C7#16

end Config

/-- A block: `N` samples in lane order (R13, R51). -/
abbrev Block := Vector Sample Config.N

/-- The draws of one channel for one PROC, one pair a lane (R131). -/
abbrev DrawBlock := Vector Draw Config.N

namespace Config

/-- FREE VALUE (DESIGN CHOICE, log entry 3; safe): whether the engine presents this side of this channel as ready
at the PROC of this index, where the state lists no input for it. "present any of the four combinations per
channel" (R166). -/
opaque freeReady : Nat → Side → Channel → Bool

/-- FREE VALUE (DESIGN CHOICE, log entry 3; safe): the samples the engine presents on this side of this channel at
the PROC of this index, where the state lists no input for it. "present any 16-bit values in every lane" (R166). -/
opaque freeBlock : Nat → Side → Channel → Block

/-- FREE VALUE (DESIGN CHOICE, log entry 4; safe): the pairs the random source supplies to this channel at the PROC of
this index, where the state lists no input for it; "every combination in range admitted, under no law" (R131). -/
opaque freeDraws : Nat → Channel → DrawBlock

end Config

end Sys2Proof
end

