-- ==== Sys2Proof/Syntax.lean ====
section
/-! DEFINITION. The command set: one constructor of `Instr` per row of the opcode table (R77), the operations and
registers the fields of a word name (R72, R76), the causes of an illegal word (R192) and the pseudo-instructions (R83). -/

namespace Sys2Proof

/-- The legal commands, one per row of R77. -/
inductive Instr where
  /-- NOP (R112). -/
  | nop
  /-- WRP.MIX (R101). -/
  | wrpMix (imm : Half)
  /-- WRP.NOISE (R102). -/
  | wrpNoise (imm : Half)
  /-- WRP.DENSITY (R103). -/
  | wrpDensity (imm : Half)
  /-- WRP.FEEDBACK (R175). -/
  | wrpFeedback (imm : Half)
  /-- WRP.DELAY (R176). -/
  | wrpDelay (imm : Half)
  /-- RDP.MIX (R105). -/
  | rdpMix
  /-- RDP.NOISE (R106). -/
  | rdpNoise
  /-- RDP.DENSITY (R107). -/
  | rdpDensity
  /-- RDP.FEEDBACK (R108). -/
  | rdpFeedback
  /-- RDP.DELAY (R109). -/
  | rdpDelay
  /-- RDP.STATUS (R110). -/
  | rdpStatus
  /-- RDP.ID (R111). -/
  | rdpId
  /-- PROC (R150). -/
  | proc
deriving DecidableEq, Repr

/-- The operations of the OP field (R72). -/
inductive Op where
  | nop
  | wrp
  | rdp
  | proc
deriving DecidableEq, Repr

/-- The registers of the index map (R76). -/
inductive Reg where
  | mix
  | noise
  | density
  | feedback
  | delay
  | status
  | id
deriving DecidableEq, Repr

/-- Why a word is illegal (R192). -/
inductive Cause where
  /-- Code 1: OP is 4..15. -/
  | reservedOp
  /-- Code 2: a legal OP the port does not accept. -/
  | wrongPort
  /-- Code 3: a field that must be zero is not. -/
  | reservedField
  /-- Code 4: REG is 7..15 in WRP or RDP. -/
  | reservedReg
  /-- Code 5: WRP to STATUS or ID. -/
  | readOnly
deriving DecidableEq, Repr

/-- What a (port, word) pair decodes to: one legal row or one cause (R78). -/
inductive Decoded where
  | legal (i : Instr)
  | illegal (c : Cause)
deriving DecidableEq, Repr

/-- One row of the opcode map (R77): the words with `word &&& mask = pattern` on the ports the row names. -/
structure Row where
  mnemonic : String
  ports : List Port
  pattern : Word
  mask : Word
deriving DecidableEq, Repr

/-- The pseudo-instructions (R83). -/
inductive Pseudo where
  | dry
  | wet
  | bypass
  | nofb
  | fbmax
deriving DecidableEq, Repr

/-- The command part of an assembler line (R82, R83). The immediate is any integer a line may write; the assembler refuses
the ones outside [0, 65535]. -/
inductive AsmStmt where
  | nop
  | wrp (r : Reg) (imm : Int)
  | rdp (r : Reg)
  | proc
  /-- `.word <hex32>` (R82). -/
  | word (w : Nat)
  | pseudo (p : Pseudo)
deriving DecidableEq, Repr

end Sys2Proof
end

