-- ==== Sys2Proof/WellFormed.lean ====
section
/-! DEFINITION. The static check on a command: the port it is issued on must be one its table row names (R77). Operand
ranges need no check: IMM is a 16-bit field and every value of it is legal (R100). -/

namespace Sys2Proof

/-- A command is well formed on a port exactly when the port column of its row in R77 names that port. -/
def wellFormed : Port → Instr → Bool
  | _, .nop => true
  | .ctrl, .proc => false
  | .period, .proc => true
  | .ctrl, _ => true
  | .period, _ => false

end Sys2Proof
end

