-- ==== Sys2Proof/Decode.lean ====
section
/-! DEFINITION. Decoding, total on every port and word, each refusal by its cause (R78), and the encoder (R82). -/

namespace Sys2Proof

/-- OP, bits 31:28 (R72). -/
def opField (w : Word) : BitVec 4 := w.extractLsb' 28 4

/-- REG, bits 27:24 (R73). -/
def regField (w : Word) : BitVec 4 := w.extractLsb' 24 4

/-- RSV, bits 23:16 (R74). -/
def rsvField (w : Word) : BitVec 8 := w.extractLsb' 16 8

/-- IMM, bits 15:0 (R75). -/
def immField (w : Word) : Half := w.extractLsb' 0 16

/-- The operation an OP field selects; 4..15 are reserved (R72). -/
def Op.ofField (v : BitVec 4) : Option Op :=
  match v.toNat with
  | 0 => some .nop
  | 1 => some .wrp
  | 2 => some .rdp
  | 3 => some .proc
  | _ => none

/-- The register a REG field selects; 7..15 are reserved (R76). -/
def Reg.ofField (v : BitVec 4) : Option Reg :=
  match v.toNat with
  | 0 => some .mix
  | 1 => some .noise
  | 2 => some .density
  | 3 => some .feedback
  | 4 => some .delay
  | 5 => some .status
  | 6 => some .id
  | _ => none

/-- The index of a register (R76). -/
def regIndex : Reg → BitVec 4
  | .mix => 0#4
  | .noise => 1#4
  | .density => 2#4
  | .feedback => 3#4
  | .delay => 4#4
  | .status => 5#4
  | .id => 6#4

/-- The OP field of an operation (R72). -/
def opIndex : Op → BitVec 4
  | .nop => 0#4
  | .wrp => 1#4
  | .rdp => 2#4
  | .proc => 3#4

/-- The table of R71: which operation a port accepts. -/
def accepts : Port → Op → Bool
  | _, .nop => true
  | .ctrl, .wrp => true
  | .ctrl, .rdp => true
  | .ctrl, .proc => false
  | .period, .wrp => false
  | .period, .rdp => false
  | .period, .proc => true

/-- The WRP row of a register; STATUS and ID are read-only (R76, R77). -/
def decodeWrp (imm : Half) : Option Reg → Decoded
  | none => .illegal .reservedReg
  | some .mix => .legal (.wrpMix imm)
  | some .noise => .legal (.wrpNoise imm)
  | some .density => .legal (.wrpDensity imm)
  | some .feedback => .legal (.wrpFeedback imm)
  | some .delay => .legal (.wrpDelay imm)
  | some .status => .illegal .readOnly
  | some .id => .illegal .readOnly

/-- The RDP row of a register (R76, R77). -/
def decodeRdp : Option Reg → Decoded
  | none => .illegal .reservedReg
  | some .mix => .legal .rdpMix
  | some .noise => .legal .rdpNoise
  | some .density => .legal .rdpDensity
  | some .feedback => .legal .rdpFeedback
  | some .delay => .legal .rdpDelay
  | some .status => .legal .rdpStatus
  | some .id => .legal .rdpId

/-- Decoding in the check order of R78: the first check that fails gives the cause. -/
def decode (p : Port) (w : Word) : Decoded :=
  match Op.ofField (opField w) with
  | none => .illegal .reservedOp
  | some op =>
    if accepts p op = false then .illegal .wrongPort
    else if rsvField w ≠ 0#8 then .illegal .reservedField
    else if (op = .nop ∨ op = .proc) ∧ regField w ≠ 0#4 then .illegal .reservedField
    else if op ≠ .wrp ∧ immField w ≠ 0#16 then .illegal .reservedField
    else
      match op with
      | .nop => .legal .nop
      | .wrp => decodeWrp (immField w) (Reg.ofField (regField w))
      | .rdp => decodeRdp (Reg.ofField (regField w))
      | .proc => .legal .proc

/-- The opcode map as masks and patterns (R77). `decode` does not read it: a statement says that the two agree. -/
def opcodeTable : List Row :=
  [ ⟨"NOP", [.ctrl, .period], 0x00000000#32, 0xFFFFFFFF#32⟩,
    ⟨"WRP.MIX", [.ctrl], 0x10000000#32, 0xFFFF0000#32⟩,
    ⟨"WRP.NOISE", [.ctrl], 0x11000000#32, 0xFFFF0000#32⟩,
    ⟨"WRP.DENSITY", [.ctrl], 0x12000000#32, 0xFFFF0000#32⟩,
    ⟨"WRP.FEEDBACK", [.ctrl], 0x13000000#32, 0xFFFF0000#32⟩,
    ⟨"WRP.DELAY", [.ctrl], 0x14000000#32, 0xFFFF0000#32⟩,
    ⟨"RDP.MIX", [.ctrl], 0x20000000#32, 0xFFFFFFFF#32⟩,
    ⟨"RDP.NOISE", [.ctrl], 0x21000000#32, 0xFFFFFFFF#32⟩,
    ⟨"RDP.DENSITY", [.ctrl], 0x22000000#32, 0xFFFFFFFF#32⟩,
    ⟨"RDP.FEEDBACK", [.ctrl], 0x23000000#32, 0xFFFFFFFF#32⟩,
    ⟨"RDP.DELAY", [.ctrl], 0x24000000#32, 0xFFFFFFFF#32⟩,
    ⟨"RDP.STATUS", [.ctrl], 0x25000000#32, 0xFFFFFFFF#32⟩,
    ⟨"RDP.ID", [.ctrl], 0x26000000#32, 0xFFFFFFFF#32⟩,
    ⟨"PROC", [.period], 0x30000000#32, 0xFFFFFFFF#32⟩ ]

/-- The mnemonic of a command's row (R77). -/
def Instr.mnemonic : Instr → String
  | .nop => "NOP"
  | .wrpMix _ => "WRP.MIX"
  | .wrpNoise _ => "WRP.NOISE"
  | .wrpDensity _ => "WRP.DENSITY"
  | .wrpFeedback _ => "WRP.FEEDBACK"
  | .wrpDelay _ => "WRP.DELAY"
  | .rdpMix => "RDP.MIX"
  | .rdpNoise => "RDP.NOISE"
  | .rdpDensity => "RDP.DENSITY"
  | .rdpFeedback => "RDP.FEEDBACK"
  | .rdpDelay => "RDP.DELAY"
  | .rdpStatus => "RDP.STATUS"
  | .rdpId => "RDP.ID"
  | .proc => "PROC"

/-- The number of a cause in STATUS.ILLC (R192). -/
def Cause.code : Cause → BitVec 3
  | .reservedOp => 1#3
  | .wrongPort => 2#3
  | .reservedField => 3#3
  | .reservedReg => 4#3
  | .readOnly => 5#3

/-- A word from its OP, REG and IMM fields, RSV zero (R70, R82). -/
def packWord (op reg : BitVec 4) (imm : Half) : Word := op ++ reg ++ 0#8 ++ imm

/-- The word of a command (R77, R82). -/
def encode : Instr → Word
  | .nop => packWord 0#4 0#4 0#16
  | .wrpMix imm => packWord 1#4 0#4 imm
  | .wrpNoise imm => packWord 1#4 1#4 imm
  | .wrpDensity imm => packWord 1#4 2#4 imm
  | .wrpFeedback imm => packWord 1#4 3#4 imm
  | .wrpDelay imm => packWord 1#4 4#4 imm
  | .rdpMix => packWord 2#4 0#4 0#16
  | .rdpNoise => packWord 2#4 1#4 0#16
  | .rdpDensity => packWord 2#4 2#4 0#16
  | .rdpFeedback => packWord 2#4 3#4 0#16
  | .rdpDelay => packWord 2#4 4#4 0#16
  | .rdpStatus => packWord 2#4 5#4 0#16
  | .rdpId => packWord 2#4 6#4 0#16
  | .proc => packWord 3#4 0#4 0#16

/-- The command a pseudo-instruction stands for (R83). -/
def Pseudo.expand : Pseudo → Instr
  | .dry => .wrpMix 0#16
  | .wet => .wrpMix 0x8000#16
  | .bypass => .wrpDensity 0#16
  | .nofb => .wrpFeedback 0#16
  | .fbmax => .wrpFeedback 0xFFFF#16

/-- The four bytes of a word in the reference byte order of R53 (little-endian), for a platform that stores command
words in byte memory; no port of the DMB shows a byte (DEDUCED, log entry 14; safe). -/
def wordBytes (w : Word) : List (BitVec 8) :=
  [w.extractLsb' 0 8, w.extractLsb' 8 8, w.extractLsb' 16 8, w.extractLsb' 24 8]

/-- The word in four bytes of such a memory, lowest address first (R53); `none` for any other number of bytes (R81). -/
def wordOfBytes : List (BitVec 8) → Option Word
  | [b0, b1, b2, b3] => some (b3 ++ b2 ++ b1 ++ b0)
  | _ => none

/-- The port a word is legal on: CTRL if it is legal there, else PERIOD if it is legal there, else CTRL (where it then
runs the illegal-command rule). Only NOP is legal on both (R77). -/
def homePort (w : Word) : Port :=
  match decode .ctrl w with
  | .legal _ => .ctrl
  | .illegal _ =>
    match decode .period w with
    | .legal _ => .period
    | .illegal _ => .ctrl

/-- The word an opcode-table row's bits stand for: a command is exactly 32 bits (R81), so the bits from `nbits` up
are zero. The bytes are laid out in the reference order of R53 and read back. -/
def tableWord (nbits w : Nat) : Option Word :=
  if nbits ≤ 32 then wordOfBytes (wordBytes (BitVec.ofNat 32 (w % 2 ^ nbits))) else none

/-- The command the decoder reads from a table row's bits, on the port that accepts the row. -/
def decodeTableWord (nbits w : Nat) : Option Instr :=
  match tableWord nbits w with
  | none => none
  | some word =>
    match decode (homePort word) word with
    | .legal i => some i
    | .illegal _ => none

end Sys2Proof
end

