-- ==== Sys2Proof/Machine/State.lean ====
section
/-! DEFINITION. The state of the DMB (R20), the events it records (R36), what its agents present, and the reset state (R39). -/

namespace Sys2Proof.Machine

/-- The DMB raises no exception, trap or abort (R190) and has no stuck state (R167, R203), so no step ends in a fault
and this type has no constructor. An illegal word is recorded in STATUS and the run goes on (R191; log entry 10). -/
inductive Fault
deriving DecidableEq, Repr

/-- Why an instruction has no meaning in the model. -/
inductive Refusal where
  /-- Raised by an arm of `exec` whose instruction is not modelled; no arm of this model raises it. Safe. -/
  | notModelled (mnemonic : String)
deriving DecidableEq, Repr

/-- The parameters one PROC uses for all its lanes (R33, R152). -/
structure Snapshot where
  mix : BitVec 16
  noise : BitVec 6
  density : BitVec 7
deriving DecidableEq, Repr

/-- The interface events of the DMB (R36). -/
inductive Event where
  /-- `acq(side, ch)` (R156). -/
  | acq (side : Side) (ch : Channel)
  /-- `emit(ch, block)` (R160). -/
  | emit (ch : Channel) (block : Block)
  /-- `rel(side, ch)` (R161). -/
  | rel (side : Side) (ch : Channel)
  /-- `resp(v)` on the CTRL response channel (R104). -/
  | resp (v : Half)
deriving DecidableEq, Repr

/-- What is presented for one channel at one PROC (R150): each side's block where that side is ready, `none` where it is
not, and the draws of the lanes, which count only if the channel is processed (R131). -/
structure ChannelInput where
  clean : Option Block
  dirty : Option Block
  draws : DrawBlock
deriving DecidableEq, Repr

/-- What the engine and the random source present at one PROC (R150, R166). -/
structure PeriodInput where
  left : ChannelInput
  right : ChannelInput
deriving DecidableEq, Repr

/-- One choice of the outside world: the next command of the merged order comes from this port (R57), or the reset input
is asserted or released (R210, R212). DESIGN CHOICE (log entries 1 and 9; safe: every list of turns is admitted). -/
inductive Turn where
  | command (p : Port)
  | assertReset
  | releaseReset
deriving DecidableEq, Repr

/-- The state of the DMB and of what its agents present to it. -/
structure State where
  /-- MIX, crossfade weight in units of 1/32768 (R23). -/
  mix : BitVec 16
  /-- NOISE, stored width 6 bits (R24). -/
  noise : BitVec 6
  /-- DENSITY in percent, stored width 7 bits (R25). -/
  density : BitVec 7
  /-- FEEDBACK in units of 1/32768, stored width 15 bits (R26). -/
  feedback : BitVec 15
  /-- DELAY in milliseconds, stored width 9 bits (R27). -/
  delay : BitVec 9
  /-- STATUS: PL bit 0, PR bit 1, ILL bit 2, ILLC bits 6:4, the others reserved (R28). -/
  status : BitVec 16
  /-- The hidden parameter snapshot, loaded at the start of each PROC (R33). -/
  snapshot : Snapshot
  /-- Placeholder for the random source's hidden state (R34); the model only indexes free draws with it. -/
  rng : Nat
  /-- The build parameter `FB_MAX` (R7); no step changes it (log entry 5). -/
  fbMax : BitVec 15
  /-- Whether the external reset input is asserted (R212). -/
  inReset : Bool
  /-- Words waiting on the CTRL port, oldest first (R71). -/
  ctrlIn : List Word
  /-- Words waiting on the PERIOD port, oldest first (R71). -/
  periodIn : List Word
  /-- The choices that make the merged order, oldest first (R57). -/
  turns : List Turn
  /-- What the engine and the random source present at the coming PROCs, oldest first (R150, R166). -/
  engineIn : List PeriodInput
  /-- Model's own: the index of the next free engine input (log entry 3). -/
  periods : Nat
  /-- The event history, oldest first (R36). -/
  events : List Event
deriving DecidableEq, Repr

/-- The state right after reset is released (R39, R210), with the default build (R7), nothing presented by any agent and
nothing recorded. `snapshot` and `rng` are "unspecified" in R39: DESIGN CHOICE zero (log entries 6 and 7; unsafe). -/
def State.reset : State where
  mix := 0x0000#16
  noise := 20#6
  density := 5#7
  feedback := 0x0000#15
  delay := 1#9
  status := 0x0000#16
  snapshot := ⟨0#16, 0#6, 0#7⟩
  rng := 0
  fbMax := Config.fbMaxDefault
  inReset := false
  ctrlIn := []
  periodIn := []
  turns := []
  engineIn := []
  periods := 0
  events := []

end Sys2Proof.Machine
end

