-- ==== Sys2Proof/Machine/Flags.lean ====
section
/-! DEFINITION. The fields of STATUS, the DMB's only flags (R28, R38), and the two ways they are written (R162, R191). -/

namespace Sys2Proof.Machine

/-- STATUS.PL, bit 0 (R28). -/
def statusPL (st : BitVec 16) : Bool := st.getLsbD 0

/-- STATUS.PR, bit 1 (R28). -/
def statusPR (st : BitVec 16) : Bool := st.getLsbD 1

/-- STATUS.ILL, bit 2 (R28). -/
def statusILL (st : BitVec 16) : Bool := st.getLsbD 2

/-- STATUS.ILLC, bits 6:4 (R28). -/
def statusILLC (st : BitVec 16) : BitVec 3 := st.extractLsb' 4 3

/-- The reserved bits of STATUS, 3 and 15:7 (R28). -/
def statusReserved (st : BitVec 16) : BitVec 10 := st.extractLsb' 7 9 ++ st.extractLsb' 3 1

/-- The end of a PROC: PL and PR are written, every other bit keeps its value (R162). -/
def setProcessed (st : BitVec 16) (pl pr : Bool) : BitVec 16 :=
  st.extractLsb' 2 14 ++ BitVec.ofBool pr ++ BitVec.ofBool pl

/-- An illegal word: ILL becomes 1, and ILLC becomes the cause if ILL was 0 before; every other bit keeps its value
(R191). -/
def recordIllegal (st : BitVec 16) (c : Cause) : BitVec 16 :=
  st.extractLsb' 7 9 ++ (if statusILL st then statusILLC st else c.code) ++ st.extractLsb' 3 1 ++ 1#1 ++ st.extractLsb' 0 2

end Sys2Proof.Machine
end

