-- ==== Sys2Proof/Machine/Arith.lean ====
section
/-! DEFINITION. The integer primitives of the pseudocode (R9): exact integers, floor division, clamps and the readings of
16-bit patterns. -/

namespace Sys2Proof.Machine

/-- `sext_16` (R9): a pattern as a two's complement integer. -/
def sext16 (v : BitVec 16) : Int := v.toInt

/-- `zext_16` of a 16-bit pattern, read as an unsigned integer (R9). -/
def zext16 (v : BitVec 16) : Nat := v.toNat

/-- `zext_16` of a narrower stored value: padded with zero bits to 16 bits (R9). -/
def pad16 {n : Nat} (v : BitVec n) : Half := v.setWidth 16

/-- `bits16` (R9): the pattern of an integer, x mod 65536. -/
def bits16 (x : Int) : BitVec 16 := BitVec.ofInt 16 x

/-- `floor(a / b)` for b > 0 (R9): the greatest q with q*b ≤ a. Lean's integer division is Euclidean, which is this one for
a positive divisor; every divisor of the DMB is a positive constant (R168). -/
def floorDiv (a b : Int) : Int := a / b

/-- `clamp(x, lo, hi)` on integers (R9). -/
def clampInt (x lo hi : Int) : Int := min (max x lo) hi

/-- `clamp(v, lo, hi)` on unsigned operand values (R9). -/
def clampNat (v lo hi : Nat) : Nat := min (max v lo) hi

end Sys2Proof.Machine
end

