-- ==== Sys2Proof/Machine/Operands.lean ====
section
/-! DEFINITION. The one operand form of the DMB, WRP's zero-extended IMM (R75), and the clamp of each register at the
point of write (R100). -/

namespace Sys2Proof.Machine

/-- What WRP.MIX stores (R101). -/
def clampMix (v : Nat) : BitVec 16 := BitVec.ofNat 16 (min v Config.mixOne)

/-- What WRP.NOISE stores (R102). -/
def clampNoise (v : Nat) : BitVec 6 := BitVec.ofNat 6 (min v Config.noiseMax)

/-- What WRP.DENSITY stores (R103). -/
def clampDensity (v : Nat) : BitVec 7 := BitVec.ofNat 7 (min v Config.densityMax)

/-- What WRP.FEEDBACK stores in a build with this `FB_MAX` (R175). -/
def clampFeedback (fbMax : BitVec 15) (v : Nat) : BitVec 15 := BitVec.ofNat 15 (min v fbMax.toNat)

/-- What WRP.DELAY stores (R176). -/
def clampDelay (v : Nat) : BitVec 9 := BitVec.ofNat 9 (clampNat v Config.delayMin Config.delayMax)

end Sys2Proof.Machine
end

