-- ==== Sys2Proof/Machine/Ops.lean ====
section
/-! DEFINITION. The named operations on the state: register reads and writes, the block-port primitives of R11, the
illegal-command outcome (R191), the reset input (R210, R212) and the two command ports (R71). -/

namespace Sys2Proof.Machine

/-! ### Registers -/

/-- `reg[MIX] <- v` (R11, R23). -/
def State.withMix (s : State) (v : BitVec 16) : State := { s with mix := v }

/-- `reg[NOISE] <- v` (R11, R24). -/
def State.withNoise (s : State) (v : BitVec 6) : State := { s with noise := v }

/-- `reg[DENSITY] <- v` (R11, R25). -/
def State.withDensity (s : State) (v : BitVec 7) : State := { s with density := v }

/-- `reg[FEEDBACK] <- v` (R11, R26); the port `fb_gain` follows it (R31). -/
def State.withFeedback (s : State) (v : BitVec 15) : State := { s with feedback := v }

/-- `reg[DELAY] <- v` (R11, R27); the port `delay_ms` follows it (R31). -/
def State.withDelay (s : State) (v : BitVec 9) : State := { s with delay := v }

/-- `reg[STATUS] <- v` (R28). -/
def State.withStatus (s : State) (v : BitVec 16) : State := { s with status := v }

/-- `zext_16(reg[r])` for every readable register (R76, R104); ID is a constant (R29). -/
def readReg (r : Reg) (s : State) : Half :=
  match r with
  | .mix => s.mix
  | .noise => pad16 s.noise
  | .density => pad16 s.density
  | .feedback => pad16 s.feedback
  | .delay => pad16 s.delay
  | .status => s.status
  | .id => Config.idValue

/-! ### Events -/

/-- Append an event to the history (R36). -/
def State.record (s : State) (e : Event) : State := { s with events := s.events ++ [e] }

/-- `Respond(v)` (R11). -/
def respond (v : Half) (s : State) : State := s.record (.resp v)

/-- `Acquire(side, ch)` (R11). -/
def acquire (side : Side) (ch : Channel) (s : State) : State := s.record (.acq side ch)

/-- `Emit(ch)` (R11, R160). -/
def emit (ch : Channel) (block : Block) (s : State) : State := s.record (.emit ch block)

/-- `Release(side, ch)` (R11, R161). -/
def release (side : Side) (ch : Channel) (s : State) : State := s.record (.rel side ch)

/-- `MemRead((side, ch, i), 1)` of an acquired block, sign-extended (R11, R115). -/
def memRead (b : Block) (i : Fin Config.N) : Int := sext16 b[i]

/-! ### What a PROC is presented with -/

/-- The free input of one channel at the PROC of index `n` (log entries 3 and 4). -/
def freeChannel (n rng : Nat) (ch : Channel) : ChannelInput where
  clean := if Config.freeReady n .clean ch then some (Config.freeBlock n .clean ch) else none
  dirty := if Config.freeReady n .dirty ch then some (Config.freeBlock n .dirty ch) else none
  draws := Config.freeDraws rng ch

/-- The inputs of the next PROC (R150): the ones listed, or free values where none is listed. -/
def periodInput (s : State) : PeriodInput :=
  match s.engineIn with
  | inp :: _ => inp
  | [] => ⟨freeChannel s.periods s.rng .left, freeChannel s.periods s.rng .right⟩

/-- The inputs of one channel. -/
def PeriodInput.channel (inp : PeriodInput) : Channel → ChannelInput
  | .left => inp.left
  | .right => inp.right

/-- The inputs of a PROC are used up by that PROC: the next one is presented with the next inputs (R57, R150). -/
def State.nextPeriod (s : State) : State :=
  { s with engineIn := s.engineIn.tail, periods := s.periods + 1, rng := s.rng + 1 }

/-- Load the snapshot from the registers (R33, R152). -/
def State.takeSnapshot (s : State) : State := { s with snapshot := ⟨s.mix, s.noise, s.density⟩ }

/-! ### The exceptional outcome and reset -/

/-- `raise IllegalCommand(port, word)`: the whole effect of an illegal word on the DMB, and the only exceptional outcome it
has (R191). No state is saved and control goes nowhere (R195), so there is no return from it (R196). -/
def raiseIllegal (c : Cause) (s : State) : State := s.withStatus (recordIllegal s.status c)

/-- Every piece of the DMB's state at the value of R39. The build parameter, what the agents present and the recorded
history are not the DMB's state and stay; so does `rng`, which R39 leaves unspecified (log entries 7, 8 and 9). -/
def applyReset (s : State) : State :=
  { s with
    mix := State.reset.mix
    noise := State.reset.noise
    density := State.reset.density
    feedback := State.reset.feedback
    delay := State.reset.delay
    status := State.reset.status
    snapshot := State.reset.snapshot }

/-- The level of the reset input. -/
def State.withReset (s : State) (b : Bool) : State := { s with inReset := b }

/-! ### The command ports -/

/-- The words waiting on a port. -/
def State.waiting (s : State) : Port → List Word
  | .ctrl => s.ctrlIn
  | .period => s.periodIn

/-- Replace the words waiting on a port. -/
def State.withWaiting (s : State) (p : Port) (ws : List Word) : State :=
  match p with
  | .ctrl => { s with ctrlIn := ws }
  | .period => { s with periodIn := ws }

/-- Replace the turns to come. -/
def State.withTurns (s : State) (ts : List Turn) : State := { s with turns := ts }

/-- A word presented on a port so that it is the next command applied: first in that port's queue, that port's turn, and the
reset input released. -/
def present (p : Port) (w : Word) (s : State) : State :=
  (((s.withWaiting p (w :: s.waiting p)).withTurns (.command p :: s.turns))).withReset false

end Sys2Proof.Machine
end

