-- ==== Sys2Proof/Machine/Feedback.lean ====
section
/-! DEFINITION. WRP.FEEDBACK, WRP.DELAY and the two output ports (43_feedback.md). -/

namespace Sys2Proof.Machine

/-- The output port `fb_gain[14:0]`: always FEEDBACK (R31, R177). -/
def State.fbGain (s : State) : BitVec 15 := s.feedback

/-- The output port `delay_ms[8:0]`: always DELAY (R31, R178). -/
def State.delayMs (s : State) : BitVec 9 := s.delay

/-- WRP.FEEDBACK; the port `fb_gain` follows the register (R175). -/
def execWrpFeedback (imm : Half) (s : State) : Host.Outcome State Fault Refusal :=
  .next (s.withFeedback (clampFeedback s.fbMax (zext16 imm)))

/-- WRP.DELAY; the port `delay_ms` follows the register (R176). -/
def execWrpDelay (imm : Half) (s : State) : Host.Outcome State Fault Refusal :=
  .next (s.withDelay (clampDelay (zext16 imm)))

end Sys2Proof.Machine
end

