-- ==== Sys2Proof/Machine/Degrade.lean ====
section
/-! DEFINITION. The lane function DEGRADE and its five steps, on exact integers (41_degrade.md). -/

namespace Sys2Proof.Machine

/-- Step 2, crush depth (R133). -/
def crushBits (noise : Int) : Int := clampInt (8 - floorDiv noise 10) Config.bitsMin Config.bitsMax

/-- The number of low bits that crushing clears, k = 15 - bits (R134). -/
def crushShift (noise : Int) : Nat := (15 - crushBits noise).toNat

/-- Step 3, quantize by floor for both signs (R134, conflict C1). -/
def crush (noise x : Int) : Int := floorDiv x (2 ^ crushShift noise) * 2 ^ crushShift noise

/-- Step 4, the noise term, rounded once by floor (R135). -/
def noiseTerm (noise u : Int) : Int := floorDiv (u * noise) 100

/-- The hard clamp to the sample range (R136, R159). -/
def clipSample (y : Int) : Int := clampInt y (-32768) 32767

/-- DEGRADE (R137): step 1 decides whether the lane fires (R132); if it does not, the sample is returned unchanged. -/
def degrade (x noise density d u : Int) : Int :=
  if d ≥ density then x else clipSample (crush noise x + noiseTerm noise u)

end Sys2Proof.Machine
end

