-- ==== Sys2Proof/Machine/Mixer.lean ====
section
/-! DEFINITION. The block mixer: PROC (42_mixer.md). -/

namespace Sys2Proof.Machine

/-- MIXLANE: one floor rounding, then the final clamp (R158, R159). -/
def mixLane (c x' m : Int) : Int := clipSample (floorDiv (c * (32768 - m) + x' * m) 32768)

/-- Lane `i` of the output block (R157): it reads lane `i` of the two sources and its own draw only. -/
def outLane (snap : Snapshot) (clean dirty : Block) (draws : DrawBlock) (i : Fin Config.N) : Sample :=
  bits16 (mixLane (memRead clean i)
    (degrade (memRead dirty i) snap.noise.toNat snap.density.toNat draws[i].d.val draws[i].u.toInt) snap.mix.toNat)

/-- The output block of a processed channel: every lane, each exactly once (R157, R164). -/
def mixBlock (snap : Snapshot) (clean dirty : Block) (draws : DrawBlock) : Block :=
  Vector.ofFn (outLane snap clean dirty draws)

/-- One channel of a PROC and whether it was processed: both sides ready, then acquire, mix, emit and release in the order of
R156; otherwise the channel is skipped and nothing is touched (R154, R155). -/
def procChannel (ch : Channel) (inp : ChannelInput) (s : State) : State × Bool :=
  match inp.clean, inp.dirty with
  | some clean, some dirty =>
    let s1 := acquire .dirty ch (acquire .clean ch s)
    let s2 := emit ch (mixBlock s1.snapshot clean dirty inp.draws) s1
    (release .dirty ch (release .clean ch s2), true)
  | _, _ => (s, false)

/-- The whole PROC (R151): snapshot, channel 0 completely before channel 1 (R153), then PL and PR (R162). -/
def procState (s : State) : State :=
  let inp := periodInput s
  let s0 := s.nextPeriod.takeSnapshot
  let r0 := procChannel .left (inp.channel .left) s0
  let r1 := procChannel .right (inp.channel .right) r0.1
  r1.1.withStatus (setProcessed r1.1.status r0.2 r1.2)

/-- PROC; it never waits and never fails (R150, R167). -/
def execProc (s : State) : Host.Outcome State Fault Refusal := .next (procState s)

end Sys2Proof.Machine
end

