-- ==== Sys2Proof/Machine/Parameters.lean ====
section
/-! DEFINITION. NOP, the WRP forms of MIX, NOISE and DENSITY, and every RDP form (40_parameters.md). -/

namespace Sys2Proof.Machine

/-- NOP: no state and no event (R112). -/
def execNop (s : State) : Host.Outcome State Fault Refusal := .next s

/-- WRP.MIX (R101). -/
def execWrpMix (imm : Half) (s : State) : Host.Outcome State Fault Refusal :=
  .next (s.withMix (clampMix (zext16 imm)))

/-- WRP.NOISE (R102). -/
def execWrpNoise (imm : Half) (s : State) : Host.Outcome State Fault Refusal :=
  .next (s.withNoise (clampNoise (zext16 imm)))

/-- WRP.DENSITY (R103). -/
def execWrpDensity (imm : Half) (s : State) : Host.Outcome State Fault Refusal :=
  .next (s.withDensity (clampDensity (zext16 imm)))

/-- RDP.MIX (R105). -/
def execRdpMix (s : State) : Host.Outcome State Fault Refusal := .next (respond (readReg .mix s) s)

/-- RDP.NOISE (R106). -/
def execRdpNoise (s : State) : Host.Outcome State Fault Refusal := .next (respond (readReg .noise s) s)

/-- RDP.DENSITY (R107). -/
def execRdpDensity (s : State) : Host.Outcome State Fault Refusal := .next (respond (readReg .density s) s)

/-- RDP.FEEDBACK (R108). -/
def execRdpFeedback (s : State) : Host.Outcome State Fault Refusal := .next (respond (readReg .feedback s) s)

/-- RDP.DELAY (R109). -/
def execRdpDelay (s : State) : Host.Outcome State Fault Refusal := .next (respond (readReg .delay s) s)

/-- RDP.STATUS; reading clears nothing (R110). -/
def execRdpStatus (s : State) : Host.Outcome State Fault Refusal := .next (respond (readReg .status s) s)

/-- RDP.ID (R111). -/
def execRdpId (s : State) : Host.Outcome State Fault Refusal := .next (respond (readReg .id s) s)

end Sys2Proof.Machine
end

