-- ==== Sys2Proof/Machine/Dispatch.lean ====
section
/-! DEFINITION. One arm per command, each calling that command's meaning. -/

namespace Sys2Proof.Machine

def exec (i : Instr) (s : State) : Host.Outcome State Fault Refusal :=
  match i with
  | .nop => Sys2Proof.Machine.execNop s
  | .wrpMix imm => Sys2Proof.Machine.execWrpMix imm s
  | .wrpNoise imm => Sys2Proof.Machine.execWrpNoise imm s
  | .wrpDensity imm => Sys2Proof.Machine.execWrpDensity imm s
  | .wrpFeedback imm => Sys2Proof.Machine.execWrpFeedback imm s
  | .wrpDelay imm => Sys2Proof.Machine.execWrpDelay imm s
  | .rdpMix => Sys2Proof.Machine.execRdpMix s
  | .rdpNoise => Sys2Proof.Machine.execRdpNoise s
  | .rdpDensity => Sys2Proof.Machine.execRdpDensity s
  | .rdpFeedback => Sys2Proof.Machine.execRdpFeedback s
  | .rdpDelay => Sys2Proof.Machine.execRdpDelay s
  | .rdpStatus => Sys2Proof.Machine.execRdpStatus s
  | .rdpId => Sys2Proof.Machine.execRdpId s
  | .proc => Sys2Proof.Machine.execProc s

end Sys2Proof.Machine
end

