-- ==== Sys2Proof/Machine/Apply.lean ====
section
/-! DEFINITION. Applying one word received on a port (R57, R78, R191), and serving the next choice of the outside world. -/

namespace Sys2Proof.Machine

/-- The effect of one received word: the command it decodes to, or the illegal-command outcome (R78, R191). -/
def applyWord (p : Port) (w : Word) (s : State) : Host.Outcome State Fault Refusal :=
  match decode p w with
  | .legal i => exec i s
  | .illegal c => .next (raiseIllegal c s)

/-- A port's turn: the oldest word waiting there is taken and applied, or dropped while reset is asserted (R212). A turn of a
port where no word waits passes (log entry 2). -/
def servePort (p : Port) (s : State) : Host.Outcome State Fault Refusal :=
  match s.waiting p with
  | [] => .next s
  | w :: ws => if s.inReset then .next (s.withWaiting p ws) else applyWord p w (s.withWaiting p ws)

/-- One choice of the outside world: a port's turn, or an edge of the reset input (R57, R210, R212). -/
def serveTurn (t : Turn) (s : State) : Host.Outcome State Fault Refusal :=
  match t with
  | .command p => servePort p s
  | .assertReset => .next ((applyReset s).withReset true)
  | .releaseReset => .next (s.withReset false)

/-- Serve the oldest turn; with none, no command arrives and nothing changes (log entry 2). -/
def advance (s : State) : Host.Outcome State Fault Refusal :=
  match s.turns with
  | [] => .next s
  | t :: ts => serveTurn t (s.withTurns ts)

/-- Present a table row's word on the port that accepts it; nothing for bits that are no command word (R81). -/
def presentTableWord (nbits w : Nat) (s : State) : State :=
  match tableWord nbits w with
  | none => s
  | some word => present (homePort word) word s

end Sys2Proof.Machine
end

