-- ==== Sys2Proof/Machine/Step.lean ====
section
/-! DEFINITION. One step of the machine. -/

namespace Sys2Proof.Machine

/-- One step: the next choice of the outside world is served (R57). -/
def step : State → Host.Outcome State Fault Refusal := advance

/-- `s` with a table row's word presented so that the very next step applies it (log entry 1). -/
def State.withFetchWord (s : State) (nbits w : Nat) : State := presentTableWord nbits w s

end Sys2Proof.Machine
end

