-- ==== Sys2Proof/Machine/Assembler.lean ====
section
/-! DEFINITION. The assembler of R82 and R83: statements to words, and lines of text to statements. The machine does not
read it; it is the spec's notation for command words. -/

namespace Sys2Proof.Machine

/-- `wrp` names one of the five writable registers (R82). -/
def wrpTakes : Reg → Bool
  | .status => false
  | .id => false
  | _ => true

/-- The word of a statement; the assembler refuses an immediate outside [0, 65535] and does not clamp (R82). -/
def assembleStmt : AsmStmt → Option Word
  | .nop => some 0x00000000#32
  | .wrp r imm =>
    if wrpTakes r = true ∧ 0 ≤ imm ∧ imm ≤ 65535 then some (packWord 1#4 (regIndex r) (BitVec.ofInt 16 imm)) else none
  | .rdp r => some (packWord 2#4 (regIndex r) 0#16)
  | .proc => some 0x30000000#32
  | .word w => if w < 2 ^ 32 then some (BitVec.ofNat 32 w) else none
  | .pseudo p => some (encode p.expand)

/-! ### Text. Spacing, tabs and leading zeros are not fixed by R82: DESIGN CHOICE (log entry 13; safe, tooling only). -/

/-- Put a finished token before the others. -/
def pushToken (cur : List Char) (rest : List (List Char)) : List (List Char) :=
  if cur.isEmpty then rest else cur :: rest

/-- The tokens of a line: `;` starts a comment, `:` and `,` stand alone, blanks separate (R82). -/
def tokens : List Char → List Char → List (List Char)
  | [], cur => pushToken cur []
  | c :: cs, cur =>
    if c = ';' then pushToken cur []
    else if c = ' ' ∨ c = '\t' then pushToken cur (tokens cs [])
    else if c = ',' ∨ c = ':' then pushToken cur ([c] :: tokens cs [])
    else tokens cs (cur ++ [c])

/-- The value of a digit in base 16. -/
def digitValue (c : Char) : Option Nat :=
  if '0' ≤ c ∧ c ≤ '9' then some (c.toNat - '0'.toNat)
  else if 'a' ≤ c ∧ c ≤ 'f' then some (c.toNat - 'a'.toNat + 10)
  else if 'A' ≤ c ∧ c ≤ 'F' then some (c.toNat - 'A'.toNat + 10)
  else none

/-- The value of a run of digits in a base, after those already read. -/
def digits (base : Nat) : List Char → Nat → Option Nat
  | [], acc => some acc
  | c :: cs, acc =>
    match digitValue c with
    | none => none
    | some v => if v < base then digits base cs (acc * base + v) else none

/-- A `0x` hexadecimal number (R82). -/
def hexNumber : List Char → Option Nat
  | '0' :: 'x' :: c :: cs => digits 16 (c :: cs) 0
  | _ => none

/-- A decimal or `0x` hexadecimal number; a sign is refused (R82). -/
def number : List Char → Option Nat
  | '0' :: 'x' :: c :: cs => digits 16 (c :: cs) 0
  | c :: cs => digits 10 (c :: cs) 0
  | [] => none

/-- The register a name stands for, in any case of letters (R82). -/
def regOfName (t : List Char) : Option Reg :=
  match t.map Char.toLower with
  | ['m', 'i', 'x'] => some .mix
  | ['n', 'o', 'i', 's', 'e'] => some .noise
  | ['d', 'e', 'n', 's', 'i', 't', 'y'] => some .density
  | ['f', 'e', 'e', 'd', 'b', 'a', 'c', 'k'] => some .feedback
  | ['d', 'e', 'l', 'a', 'y'] => some .delay
  | ['s', 't', 'a', 't', 'u', 's'] => some .status
  | ['i', 'd'] => some .id
  | _ => none

/-- The statement of a mnemonic without operands, in any case of letters (R82, R83). -/
def plainStmt (t : List Char) : Option AsmStmt :=
  match t.map Char.toLower with
  | ['n', 'o', 'p'] => some .nop
  | ['p', 'r', 'o', 'c'] => some .proc
  | ['d', 'r', 'y'] => some (.pseudo .dry)
  | ['w', 'e', 't'] => some (.pseudo .wet)
  | ['b', 'y', 'p', 'a', 's', 's'] => some (.pseudo .bypass)
  | ['n', 'o', 'f', 'b'] => some (.pseudo .nofb)
  | ['f', 'b', 'm', 'a', 'x'] => some (.pseudo .fbmax)
  | _ => none

/-- The statement of the tokens after the port (R82). -/
def parseStmt : List (List Char) → Option AsmStmt
  | [t] => plainStmt t
  | [t, a] =>
    if t.map Char.toLower = ['r', 'd', 'p'] then (regOfName a).map .rdp
    else if t.map Char.toLower = ['.', 'w', 'o', 'r', 'd'] then (hexNumber a).map .word
    else none
  | [t, a, [','], b] =>
    if t.map Char.toLower = ['w', 'r', 'p'] then
      match regOfName a, number b with
      | some r, some n => some (.wrp r n)
      | _, _ => none
    else none
  | _ => none

/-- The port a letter stands for (R82). -/
def portOfLetter : List Char → Option Port
  | ['C'] => some .ctrl
  | ['P'] => some .period
  | _ => none

/-- One line of a listing: nothing for a blank or comment line, else the port and the word; `none` where the assembler
refuses the line (R82). -/
def assembleLine (line : List Char) : Option (List (Port × Word)) :=
  match tokens line [] with
  | [] => some []
  | p :: [':'] :: rest =>
    match portOfLetter p, (parseStmt rest).bind assembleStmt with
    | some port, some w => some [(port, w)]
    | _, _ => none
  | _ => none

end Sys2Proof.Machine
end

