-- ==== Sys2Proof/Safety.lean ====
section
/-! DEFINITION. The terms in which statements speak of safe runs: legal parameters and status, buffers held, launch states, the
merged order and sequences of commands. -/

namespace Sys2Proof.Machine

/-- Every parameter register holds a legal value, in a legal build (R30, R7). -/
abbrev State.LegalParams (s : State) : Prop :=
  s.mix.toNat ≤ 0x8000 ∧ s.noise.toNat ≤ 60 ∧ s.density.toNat ≤ 100 ∧ s.feedback.toNat ≤ s.fbMax.toNat ∧
    1 ≤ s.delay.toNat ∧ s.delay.toNat ≤ 300 ∧ 1 ≤ s.fbMax.toNat

/-- STATUS has the form of R28: reserved bits 0, ILLC 0 while ILL is 0, and a recorded cause is one of 1..5 (R192). -/
abbrev State.LegalStatus (s : State) : Prop :=
  statusReserved s.status = 0#10 ∧ (statusILL s.status = false → statusILLC s.status = 0#3) ∧
    (statusILL s.status = true → 1 ≤ (statusILLC s.status).toNat ∧ (statusILLC s.status).toNat ≤ 5)

/-- The buffers held after a history, given those held before it: `acq` adds one, `rel` gives one back (R65). -/
def heldAfter : List Event → List (Side × Channel) → List (Side × Channel)
  | [], held => held
  | .acq side ch :: es, held => heldAfter es (held ++ [(side, ch)])
  | .rel side ch :: es, held => heldAfter es (held.erase (side, ch))
  | .emit _ _ :: es, held => heldAfter es held
  | .resp _ :: es, held => heldAfter es held

/-- The DMB holds no buffer (R35, R161). -/
abbrev State.HoldsNoBuffer (s : State) : Prop := heldAfter s.events [] = []

/-- The state of R39 in any legal build, with anything presented by the agents; the random source and the snapshot, which R39 leaves
unspecified, hold anything (R213). -/
def State.Launched (s : State) : Prop :=
  1 ≤ s.fbMax.toNat ∧
    s = { State.reset with
          fbMax := s.fbMax, snapshot := s.snapshot, rng := s.rng, periods := s.periods, ctrlIn := s.ctrlIn, periodIn := s.periodIn,
          turns := s.turns, engineIn := s.engineIn }

/-- The merged order that these turns make of the two ports' words (R57); a turn of a port with no word adds nothing. -/
def merged : List Turn → List Word → List Word → List (Port × Word)
  | [], _, _ => []
  | .command .ctrl :: ts, w :: cs, ps => (.ctrl, w) :: merged ts cs ps
  | .command .ctrl :: ts, [], ps => merged ts [] ps
  | .command .period :: ts, cs, w :: ps => (.period, w) :: merged ts cs ps
  | .command .period :: ts, cs, [] => merged ts cs []
  | .assertReset :: ts, cs, ps => merged ts cs ps
  | .releaseReset :: ts, cs, ps => merged ts cs ps

/-- The words of one port in a merged order. -/
def wordsOf (p : Port) (m : List (Port × Word)) : List Word := (m.filter (fun q => decide (q.1 = p))).map (·.2)

/-- Apply the words of a merged order one at a time (R57). -/
def applyAll : List (Port × Word) → State → Host.Outcome State Fault Refusal
  | [], s => .next s
  | (p, w) :: m, s =>
    match applyWord p w s with
    | .next t => applyAll m t
    | .fault f => .fault f
    | .refused r => .refused r

/-- The last value of a parameter a merged order writes, if it writes one; `pick` reads the operand of its WRP. -/
def lastWrite (pick : Instr → Option Nat) (m : List (Port × Word)) : Option Nat :=
  m.reverse.findSome? fun q => match decode q.1 q.2 with
    | .legal i => pick i
    | .illegal _ => none

/-- The operand of a WRP.MIX. -/
def mixOperand : Instr → Option Nat
  | .wrpMix imm => some imm.toNat
  | _ => none

/-- The operand of a WRP.NOISE. -/
def noiseOperand : Instr → Option Nat
  | .wrpNoise imm => some imm.toNat
  | _ => none

/-- The operand of a WRP.DENSITY. -/
def densityOperand : Instr → Option Nat
  | .wrpDensity imm => some imm.toNat
  | _ => none

/-- The operand of a WRP.FEEDBACK. -/
def feedbackOperand : Instr → Option Nat
  | .wrpFeedback imm => some imm.toNat
  | _ => none

/-- The operand of a WRP.DELAY. -/
def delayOperand : Instr → Option Nat
  | .wrpDelay imm => some imm.toNat
  | _ => none

/-- The RDP command of a register (R104). -/
def rdpOf : Reg → Instr
  | .mix => .rdpMix
  | .noise => .rdpNoise
  | .density => .rdpDensity
  | .feedback => .rdpFeedback
  | .delay => .rdpDelay
  | .status => .rdpStatus
  | .id => .rdpId

/-- What R105 to R109 say of the RDP of one parameter, whose words have the bits `k` in [31:24]: it is legal on CTRL with the other bits
zero and illegal otherwise (cause 3), illegal on PERIOD (cause 2), it responds with the register's value zero-extended and changes
nothing else, and that value lies between `lo` and `hi` wherever the registers are legal. -/
def RdpRule (k : BitVec 8) (i : Instr) (value lo hi : State → Nat) : Prop :=
  decode .ctrl (k ++ 0#24) = .legal i ∧ decode .period (k ++ 0#24) = .illegal .wrongPort ∧
  (∀ v : BitVec 24, v ≠ 0#24 → decode .ctrl (k ++ v) = .illegal .reservedField) ∧
  (∀ s : State, ∃ v : Half, v.toNat = value s ∧ exec i s = .next { s with events := s.events ++ [.resp v] }) ∧
  (∀ s : State, s.LegalParams → lo s ≤ value s ∧ value s ≤ hi s)

/-- The five parameter registers (R20). -/
def isParam : Reg → Bool
  | .status => false
  | .id => false
  | _ => true

/-- The channel of a block event. -/
def Event.channel? : Event → Option Channel
  | .acq _ ch => some ch
  | .emit ch _ => some ch
  | .rel _ ch => some ch
  | .resp _ => none

/-- What a PROC records for one channel and whether it processes it, in the words of R151 and R154 to R157: `es` are the
channel's events and `p` is its processed bit. -/
def ChannelOutcome (m nz dn : Int) (ch : Channel) (inp : ChannelInput) (es : List Event) (p : Bool) : Prop :=
  (∀ clean dirty : Block, inp.clean = some clean → inp.dirty = some dirty →
    p = true ∧ ∃ out : Block,
      (∀ (i : Nat) (h : i < Config.N), (out[i]).toInt =
        max (-32768) (min 32767 (Int.fdiv ((clean[i]).toInt * (32768 - m) +
          degrade (dirty[i]).toInt nz dn (inp.draws[i]).d.val (inp.draws[i]).u.toInt * m) 32768))) ∧
      es = [.acq .clean ch, .acq .dirty ch, .emit ch out, .rel .clean ch, .rel .dirty ch]) ∧
  ((inp.clean = none ∨ inp.dirty = none) → p = false ∧ es = [])

end Sys2Proof.Machine
end

