-- ==== Sys2Proof/Certificates/Slice0/Obligations.lean ====
section
/-! DEFINITION. The statements for the provers. -/

open Sys2Proof Sys2Proof.Machine

/-! ### Encoding -/

/-- R77, R78: the word of a command decodes to that command on every port its row names, and is a wrong-port word (cause 2)
on every other port; every operand value is covered. -/
def Obligations.EncodedCommandDecodesOnItsPorts : Prop :=
  ∀ (p : Port) (i : Instr),
    decode p (encode i) = if wellFormed p i then .legal i else .illegal .wrongPort

/-- R77: a word that decodes to a command on a port is the encoding of that command, and the command's row names the port:
no bit of a legal word is dropped. -/
def Obligations.LegalWordIsTheEncodingOfItsCommand : Prop :=
  ∀ (p : Port) (w : Word) (i : Instr), decode p w = .legal i → encode i = w ∧ wellFormed p i = true

/-- R77: a word is legal on a port exactly when a row whose port column names that port matches it; the row that matches is
the one of the decoded command; no two rows match the same word on the same port. -/
def Obligations.WordIsLegalExactlyWhenATableRowMatches : Prop :=
  (∀ (p : Port) (w : Word),
    (∃ i, decode p w = .legal i) ↔ ∃ r ∈ opcodeTable, p ∈ r.ports ∧ w &&& r.mask = r.pattern) ∧
  (∀ (p : Port) (w : Word) (i : Instr), decode p w = .legal i →
    ∃ r ∈ opcodeTable, r.mnemonic = i.mnemonic ∧ p ∈ r.ports ∧ w &&& r.mask = r.pattern) ∧
  (∀ (p : Port) (w : Word), ∀ r ∈ opcodeTable, ∀ r' ∈ opcodeTable,
    p ∈ r.ports → w &&& r.mask = r.pattern → p ∈ r'.ports → w &&& r'.mask = r'.pattern → r = r')

/-- R78: the checks in their order, each on the word's quotients and remainders; a word that passes them all is the word of
the command it decodes to. -/
def Obligations.DecodeChecksInOrder : Prop :=
  ∀ (p : Port) (w : Word) (op reg rsv imm : Nat),
    w.toNat = op * 2 ^ 28 + reg * 2 ^ 24 + rsv * 2 ^ 16 + imm → reg < 16 → rsv < 256 → imm < 65536 →
    if 4 ≤ op then decode p w = .illegal .reservedOp
    else if (p = .period ∧ (op = 1 ∨ op = 2)) ∨ (p = .ctrl ∧ op = 3) then decode p w = .illegal .wrongPort
    else if rsv ≠ 0 then decode p w = .illegal .reservedField
    else if (op = 0 ∨ op = 3) ∧ reg ≠ 0 then decode p w = .illegal .reservedField
    else if (op = 0 ∨ op = 2 ∨ op = 3) ∧ imm ≠ 0 then decode p w = .illegal .reservedField
    else if (op = 1 ∨ op = 2) ∧ 7 ≤ reg then decode p w = .illegal .reservedReg
    else if op = 1 ∧ (reg = 5 ∨ reg = 6) then decode p w = .illegal .readOnly
    else ∃ i, decode p w = .legal i ∧ (encode i).toNat = w.toNat

/-- R194: where several causes apply, the first failing check names the cause: the rule's three example words, and more. -/
def Obligations.FirstFailingCheckNamesTheCause : Prop :=
  decode .period 0x47000000#32 = .illegal .reservedOp ∧ decode .period 0x17000001#32 = .illegal .wrongPort ∧
  decode .ctrl 0x15010000#32 = .illegal .reservedField ∧
  (∀ (p : Port) (v : BitVec 28), decode p (0xF#4 ++ v) = .illegal .reservedOp) ∧
  (∀ v : BitVec 28, decode .period (0x1#4 ++ v) = .illegal .wrongPort) ∧
  (∀ v : BitVec 24, decode .ctrl (0x17#8 ++ v) =
    if v.extractLsb' 16 8 = 0#8 then .illegal .reservedReg else .illegal .reservedField)

/-- R77: words written out from the table decode to the commands of their rows. -/
def Obligations.WordsOfTheTableDecode : Prop :=
  decode .ctrl 0x00000000#32 = .legal .nop ∧ decode .period 0x00000000#32 = .legal .nop ∧
  decode .ctrl 0x10009000#32 = .legal (.wrpMix 0x9000#16) ∧ decode .ctrl 0x1100003D#32 = .legal (.wrpNoise 61#16) ∧
  decode .ctrl 0x12000065#32 = .legal (.wrpDensity 101#16) ∧
  decode .ctrl 0x13008000#32 = .legal (.wrpFeedback 0x8000#16) ∧
  decode .ctrl 0x14000096#32 = .legal (.wrpDelay 150#16) ∧ decode .ctrl 0x25000000#32 = .legal .rdpStatus ∧
  decode .ctrl 0x26000000#32 = .legal .rdpId ∧ decode .period 0x30000000#32 = .legal .proc

/-! ### A step and its command -/

/-- R57, R78: where it is a port's turn, reset is released and the oldest word waiting there decodes to a command, the step is
that command's meaning on the state with the turn and that word taken away and nothing else changed. -/
def Obligations.StepRunsTheDecodedCommand : Prop :=
  ∀ (s : State) (p : Port) (ts : List Turn) (w : Word) (ws : List Word) (i : Instr),
    s.turns = .command p :: ts → s.waiting p = w :: ws → s.inReset = false → decode p w = .legal i →
    ∃ s' : State, step s = exec i s' ∧ s'.turns = ts ∧ s'.waiting p = ws ∧ (∀ q, q ≠ p → s'.waiting q = s.waiting q) ∧
      { s' with turns := s.turns, ctrlIn := s.ctrlIn, periodIn := s.periodIn } = s

/-- Derived (the model's own interface, log entry 1): a table word presented with `withFetchWord` is the next command run, on
the state as it was but for the reset input being released. -/
def Obligations.PresentedTableWordRunsNext : Prop :=
  ∀ (s : State) (i : Instr), ∃ p, wellFormed p i = true ∧ decodeTableWord 32 (encode i).toNat = some i ∧
    step (s.withFetchWord 32 (encode i).toNat) = exec i { s with inReset := false }

/-- R167, R203: every command completes with a next state, and so does every step. -/
def Obligations.EveryCommandAndStepCompletes : Prop :=
  (∀ (i : Instr) (s : State), ∃ t, exec i s = .next t) ∧ (∀ s : State, ∃ t, step s = .next t)

/-! ### NOP, WRP, RDP -/

/-- R112: NOP is the word 0 on both ports and changes nothing; any other word with OP = 0 is illegal, cause 3. -/
def Obligations.NopChangesNothing : Prop :=
  (∀ p : Port, decode p 0x00000000#32 = .legal .nop) ∧ (∀ s : State, exec .nop s = .next s) ∧
  (∀ (p : Port) (v : BitVec 28), v ≠ 0#28 → decode p (0#4 ++ v) = .illegal .reservedField)

/-- R101, R102, R103: WRP.MIX, WRP.NOISE and WRP.DENSITY store the zero-extended IMM clamped at the top of the register's
range, change nothing else, and are wrong-port words on PERIOD. -/
def Obligations.WrpOfMixNoiseDensityStoresTheClampedOperand : Prop :=
  ∀ (imm : Half) (s : State),
    (decode .ctrl (0x1000#16 ++ imm) = .legal (.wrpMix imm) ∧ decode .period (0x1000#16 ++ imm) = .illegal .wrongPort ∧
      ∃ t, exec (.wrpMix imm) s = .next t ∧ t.mix.toNat = min imm.toNat 0x8000 ∧ { t with mix := s.mix } = s) ∧
    (decode .ctrl (0x1100#16 ++ imm) = .legal (.wrpNoise imm) ∧ decode .period (0x1100#16 ++ imm) = .illegal .wrongPort ∧
      ∃ t, exec (.wrpNoise imm) s = .next t ∧ t.noise.toNat = min imm.toNat 60 ∧ { t with noise := s.noise } = s) ∧
    (decode .ctrl (0x1200#16 ++ imm) = .legal (.wrpDensity imm) ∧
      decode .period (0x1200#16 ++ imm) = .illegal .wrongPort ∧
      ∃ t, exec (.wrpDensity imm) s = .next t ∧ t.density.toNat = min imm.toNat 100 ∧
        { t with density := s.density } = s)

/-- R175: WRP.FEEDBACK stores min(IMM, FB_MAX), the port `fb_gain` follows, nothing else changes; an operand of 1.0 or more
stores FB_MAX; on PERIOD the word is illegal, cause 2. -/
def Obligations.WrpFeedbackStoresTheBoundedGain : Prop :=
  ∀ (imm : Half) (s : State),
    decode .ctrl (0x1300#16 ++ imm) = .legal (.wrpFeedback imm) ∧
    decode .period (0x1300#16 ++ imm) = .illegal .wrongPort ∧
    ∃ t, exec (.wrpFeedback imm) s = .next t ∧ t.feedback.toNat = min imm.toNat s.fbMax.toNat ∧
      t.fbGain.toNat = min imm.toNat s.fbMax.toNat ∧ (0x8000 ≤ imm.toNat → t.feedback = s.fbMax) ∧
      { t with feedback := s.feedback } = s

/-- R176: WRP.DELAY stores clamp(IMM, 1, 300), the port `delay_ms` follows, nothing else changes; on PERIOD the word is
illegal, cause 2. -/
def Obligations.WrpDelayStoresTheClampedTime : Prop :=
  ∀ (imm : Half) (s : State),
    decode .ctrl (0x1400#16 ++ imm) = .legal (.wrpDelay imm) ∧ decode .period (0x1400#16 ++ imm) = .illegal .wrongPort ∧
    ∃ t, exec (.wrpDelay imm) s = .next t ∧ t.delay.toNat = min (max imm.toNat 1) 300 ∧
      t.delayMs.toNat = min (max imm.toNat 1) 300 ∧ { t with delay := s.delay } = s

/-- R105 to R109: each RDP of a parameter responds with the register zero-extended to 16 bits and changes nothing else; a nonzero
RSV or IMM is illegal, cause 3, and on PERIOD the word is illegal, cause 2; the value is in the register's legal range
wherever the registers are legal (R30). -/
def Obligations.RdpRespondsWithTheParameter : Prop :=
  RdpRule 0x20#8 .rdpMix (·.mix.toNat) (fun _ => 0) (fun _ => 0x8000) ∧
  RdpRule 0x21#8 .rdpNoise (·.noise.toNat) (fun _ => 0) (fun _ => 60) ∧
  RdpRule 0x22#8 .rdpDensity (·.density.toNat) (fun _ => 0) (fun _ => 100) ∧
  RdpRule 0x23#8 .rdpFeedback (·.feedback.toNat) (fun _ => 0) (·.fbMax.toNat) ∧
  RdpRule 0x24#8 .rdpDelay (·.delay.toNat) (fun _ => 1) (fun _ => 300)

/-- R110: RDP.STATUS responds with STATUS and clears nothing; wherever STATUS has its legal form the response has bits 3 and
15:7 zero and ILLC 0 while ILL is 0; other words of the row are illegal, causes 3 and 2. -/
def Obligations.RdpStatusRespondsWithStatus : Prop :=
  decode .ctrl 0x25000000#32 = .legal .rdpStatus ∧ decode .period 0x25000000#32 = .illegal .wrongPort ∧
  (∀ v : BitVec 24, v ≠ 0#24 → decode .ctrl (0x25#8 ++ v) = .illegal .reservedField) ∧
  ∀ s : State, exec .rdpStatus s = .next { s with events := s.events ++ [.resp s.status] } ∧
    (s.LegalStatus → s.status &&& 0xFF88#16 = 0#16 ∧ (s.status &&& 0x0004#16 = 0#16 → s.status &&& 0x0070#16 = 0#16))

/-- R111, R29: RDP.ID responds 0xD1C7 in every state; other words of the row are illegal, causes 3 and 2; a WRP to ID is illegal,
cause 5. -/
def Obligations.RdpIdRespondsWithTheConstant : Prop :=
  decode .ctrl 0x26000000#32 = .legal .rdpId ∧ decode .period 0x26000000#32 = .illegal .wrongPort ∧
  (∀ v : BitVec 24, v ≠ 0#24 → decode .ctrl (0x26#8 ++ v) = .illegal .reservedField) ∧
  (∀ imm : Half, decode .ctrl (0x1600#16 ++ imm) = .illegal .readOnly) ∧
  ∀ s : State, exec .rdpId s = .next { s with events := s.events ++ [.resp 0xD1C7#16] }

/-- R104: the RDPs of the CTRL port, in any number and order, respond in their order, each with the register's current value, and
change no state. -/
def Obligations.ResponsesLeaveInTheOrderOfTheReads : Prop :=
  ∀ (rs : List Reg) (s : State),
    applyAll (rs.map fun r => (.ctrl, encode (rdpOf r))) s =
      .next { s with events := s.events ++ rs.map fun r => .resp (readReg r s) }

/-- R113: after any merged order of words, legal or not, on either port, each parameter register holds the clamped value of the
last WRP to it, or its earlier value if there was none. -/
def Obligations.LastWriteWins : Prop :=
  ∀ (m : List (Port × Word)) (s : State), ∃ t, applyAll m s = .next t ∧
    t.mix.toNat = (match lastWrite mixOperand m with | some v => min v 0x8000 | none => s.mix.toNat) ∧
    t.noise.toNat = (match lastWrite noiseOperand m with | some v => min v 60 | none => s.noise.toNat) ∧
    t.density.toNat = (match lastWrite densityOperand m with | some v => min v 100 | none => s.density.toNat) ∧
    t.feedback.toNat = (match lastWrite feedbackOperand m with | some v => min v s.fbMax.toNat | none => s.feedback.toNat) ∧
    t.delay.toNat = (match lastWrite delayOperand m with | some v => min (max v 1) 300 | none => s.delay.toNat)

/-- R58: the PROC at the end of any merged order uses, for each of MIX, NOISE and DENSITY, the value of the last WRP before it,
or the earlier value. -/
def Obligations.ProcUsesTheLastWritesBeforeIt : Prop :=
  ∀ (m : List (Port × Word)) (s : State), ∃ t, applyAll (m ++ [(.period, 0x30000000#32)]) s = .next t ∧
    t.snapshot.mix.toNat = (match lastWrite mixOperand m with | some v => min v 0x8000 | none => s.mix.toNat) ∧
    t.snapshot.noise.toNat = (match lastWrite noiseOperand m with | some v => min v 60 | none => s.noise.toNat) ∧
    t.snapshot.density.toNat = (match lastWrite densityOperand m with | some v => min v 100 | none => s.density.toNat)

/-! ### PROC -/

/-- R151, R156, R162: PROC completes in every state; each channel, left before right, is processed or skipped as the rule says
with the parameters read at the start; PL and PR say which, the other status bits stay; no register, port queue, turn or
build parameter changes. That the inputs of this PROC are used up by it, so that the next one has the next listed inputs, is the model's
choice (log entry 3). -/
def Obligations.ProcFollowsThePseudocode : Prop :=
  ∀ s : State, ∃ (t : State) (el er : List Event) (pl pr : Bool), exec .proc s = .next t ∧
    ChannelOutcome s.mix.toNat s.noise.toNat s.density.toNat .left (periodInput s).left el pl ∧
    ChannelOutcome s.mix.toNat s.noise.toNat s.density.toNat .right (periodInput s).right er pr ∧
    t.events = s.events ++ el ++ er ∧ statusPL t.status = pl ∧ statusPR t.status = pr ∧
    statusILL t.status = statusILL s.status ∧ statusILLC t.status = statusILLC s.status ∧
    statusReserved t.status = statusReserved s.status ∧ t.snapshot = ⟨s.mix, s.noise, s.density⟩ ∧
    t.engineIn = s.engineIn.tail ∧
    { t with events := s.events, status := s.status, snapshot := s.snapshot, engineIn := s.engineIn, periods := s.periods,
             rng := s.rng } = s

/-- R155: a channel with a side missing leaves no trace: none of its events is recorded, its status bit is 0, and nothing of what
is presented for it (the other side's block, its draws) has any effect. -/
def Obligations.SkippedChannelLeavesNoTrace : Prop :=
  ∀ (s : State) (inp inp' : PeriodInput) (rest : List PeriodInput) (ch : Channel),
    s.engineIn = inp :: rest →
    ((inp.channel ch).clean = none ∨ (inp.channel ch).dirty = none) →
    ((inp'.channel ch).clean = none ∨ (inp'.channel ch).dirty = none) →
    (∀ ch', ch' ≠ ch → inp'.channel ch' = inp.channel ch') →
    ∃ (t : State) (es : List Event), exec .proc s = .next t ∧ exec .proc { s with engineIn := inp' :: rest } = .next t ∧
      t.events = s.events ++ es ∧ (∀ e ∈ es, e.channel? ≠ some ch) ∧
      (ch = .left → statusPL t.status = false) ∧ (ch = .right → statusPR t.status = false)

/-- R152: two states that agree on MIX, NOISE, DENSITY and on what is presented record the same events in a PROC, whatever FEEDBACK,
DELAY, STATUS, the old snapshot and the rest hold. -/
def Obligations.ProcReadsOnlyTheSnapshotAndItsInputs : Prop :=
  ∀ s s' : State, s'.mix = s.mix → s'.noise = s.noise → s'.density = s.density → periodInput s' = periodInput s →
    ∃ (t t' : State) (es : List Event), exec .proc s = .next t ∧ exec .proc s' = .next t' ∧
      t.events = s.events ++ es ∧ t'.events = s'.events ++ es ∧ statusPL t'.status = statusPL t.status ∧
      statusPR t'.status = statusPR t.status ∧ t'.snapshot = t.snapshot

/-- Derived from R163 and R138: with MIX = 0 every emitted block is the clean block; with MIX = 0x8000 and DENSITY = 0 every
emitted block is the dirty block; bit for bit, for any draws. -/
def Obligations.DryAndWetBlocksPassUnchanged : Prop :=
  ∀ s : State, ∃ t, exec .proc s = .next t ∧ ∀ (ch : Channel) (clean dirty : Block),
      ((periodInput s).channel ch).clean = some clean → ((periodInput s).channel ch).dirty = some dirty →
      (s.mix = 0#16 → Event.emit ch clean ∈ t.events) ∧
      (s.mix = 0x8000#16 → s.density = 0#7 → Event.emit ch dirty ∈ t.events)

/-- R164: lane i of the output depends only on lane i of the two sources and on its own draw. -/
def Obligations.LaneDependsOnItsOwnLaneOnly : Prop :=
  ∀ (snap : Snapshot) (clean clean' dirty dirty' : Block) (draws draws' : DrawBlock) (i : Nat) (h : i < Config.N),
    clean[i] = clean'[i] → dirty[i] = dirty'[i] → draws[i] = draws'[i] →
    (mixBlock snap clean dirty draws)[i] = (mixBlock snap clean' dirty' draws')[i]

/-- R163: the five mix laws. -/
def Obligations.MixLaws : Prop :=
  ∀ c x m : Int, -32768 ≤ c → c ≤ 32767 → -32768 ≤ x → x ≤ 32767 → 0 ≤ m → m ≤ 32768 →
    mixLane c x 0 = c ∧ mixLane c x 32768 = x ∧
    (∀ noise d u : Int, 0 ≤ d → mixLane c (degrade x noise 0 d u) 32768 = x) ∧
    mixLane c c m = c ∧ min c x ≤ mixLane c x m ∧ mixLane c x m ≤ max c x

/-- R159: the floor already lies between the two samples, so the final clamp never changes a value. -/
def Obligations.MixClampNeverBinds : Prop :=
  ∀ c x m : Int, -32768 ≤ c → c ≤ 32767 → -32768 ≤ x → x ≤ 32767 → 0 ≤ m → m ≤ 32768 →
    min c x ≤ Int.fdiv (c * (32768 - m) + x * m) 32768 ∧ Int.fdiv (c * (32768 - m) + x * m) 32768 ≤ max c x ∧
    mixLane c x m = Int.fdiv (c * (32768 - m) + x * m) 32768

/-- R158: the mix is the exact weighted sum rounded once, toward minus infinity, and the sum is at most 2^30 in size. -/
def Obligations.MixIsTheFloorOfTheWeightedSum : Prop :=
  ∀ c x m : Int, -32768 ≤ c → c ≤ 32767 → -32768 ≤ x → x ≤ 32767 → 0 ≤ m → m ≤ 32768 →
    32768 * mixLane c x m ≤ c * (32768 - m) + x * m ∧ c * (32768 - m) + x * m < 32768 * (mixLane c x m + 1) ∧
    |c * (32768 - m) + x * m| ≤ 32768 * 32768

/-! ### DEGRADE -/

/-- R132: a lane fires exactly when d < density: density = k fires for exactly k of the 100 draws, 0 for none and 100 for all; a
lane that does not fire returns its sample and ignores u. -/
def Obligations.DensityFiresThatManyDraws : Prop :=
  ∀ k : Nat, k ≤ 100 →
    ((List.finRange 100).filter fun d : Fin 100 => decide (d.val < k)).length = k ∧
    ∀ (d : Fin 100) (x noise u : Int),
      (d.val < k → degrade x noise k d.val u = clipSample (crush noise x + noiseTerm noise u)) ∧
      (k ≤ d.val → degrade x noise k d.val u = x)

/-- R133: the crush depth of every legal NOISE, as the table has it; the clamp never binds. -/
def Obligations.CrushDepthFollowsTheTable : Prop :=
  ∀ noise : Int, 0 ≤ noise → noise ≤ 60 →
    crushBits noise = 8 - Int.fdiv noise 10 ∧
    (crushBits noise, (2 : Int) ^ (crushBits noise).toNat, crushShift noise, (2 : Int) ^ crushShift noise) =
      if noise ≤ 9 then (8, 256, 7, 128) else if noise ≤ 19 then (7, 128, 8, 256) else if noise ≤ 29 then (6, 64, 9, 512)
      else if noise ≤ 39 then (5, 32, 10, 1024) else if noise ≤ 49 then (4, 16, 11, 2048)
      else if noise ≤ 59 then (3, 8, 12, 4096) else (2, 4, 13, 8192)

/-- R134: the quantizer's laws, for both signs: it is the floor to the grid, within one grid step below x, equal to x exactly on
the grid, in range, and in two's complement it clears the k low bits. -/
def Obligations.CrushIsTheFloorToTheGrid : Prop :=
  ∀ (noise : Int) (v : BitVec 16), 0 ≤ noise → noise ≤ 60 →
    crush noise v.toInt = Int.fdiv v.toInt (2 ^ crushShift noise) * 2 ^ crushShift noise ∧
    crush noise v.toInt ≤ v.toInt ∧ v.toInt - crush noise v.toInt ≤ 2 ^ crushShift noise - 1 ∧
    (crush noise v.toInt = v.toInt ↔ (2 : Int) ^ crushShift noise ∣ v.toInt) ∧
    -32768 ≤ crush noise v.toInt ∧ crush noise v.toInt ≤ 32768 - 2 ^ crushShift noise ∧
    BitVec.ofInt 16 (crush noise v.toInt) = (v.sshiftRight (crushShift noise)) <<< crushShift noise ∧
    (∀ i, BitVec.getLsbD (BitVec.ofInt 16 (crush noise v.toInt)) i =
      (decide (crushShift noise ≤ i) && v.getLsbD i))

/-- R135: the noise term is the exact product rounded once by floor, with the laws and ranges of the rule. -/
def Obligations.NoiseTermIsTheFlooredProduct : Prop :=
  (∀ noise u : Int, 100 * noiseTerm noise u ≤ u * noise ∧ u * noise < 100 * (noiseTerm noise u + 1)) ∧
  (∀ noise u : Int, noise = 0 ∨ u = 0 → noiseTerm noise u = 0) ∧
  (∀ u : Int, -32768 ≤ u → u ≤ 32767 →
    -19661 ≤ noiseTerm 60 u ∧ noiseTerm 60 u ≤ 19660 ∧ -6554 ≤ noiseTerm 20 u ∧ noiseTerm 20 u ≤ 6553) ∧
  noiseTerm 60 (-32768) = -19661 ∧ noiseTerm 60 32767 = 19660 ∧ noiseTerm 20 (-32768) = -6554 ∧
  noiseTerm 20 32767 = 6553 ∧ noiseTerm 1 (-1) = -1 ∧ noiseTerm 1 1 = 0

/-- R136: over all legal arguments the sum lies in [-52429, 48004], both ends taken; a fired lane is that sum clamped to the sample
range. -/
def Obligations.FiredLaneIsTheClippedSum : Prop :=
  (∀ x noise density d u : Int, -32768 ≤ x → x ≤ 32767 → 0 ≤ noise → noise ≤ 60 → -32768 ≤ u → u ≤ 32767 → d < density →
    -52429 ≤ crush noise x + noiseTerm noise u ∧ crush noise x + noiseTerm noise u ≤ 48004 ∧
    degrade x noise density d u = min (max (crush noise x + noiseTerm noise u) (-32768)) 32767) ∧
  crush 60 (-32768) + noiseTerm 60 (-32768) = -52429 ∧ crush 59 32767 + noiseTerm 59 32767 = 48004

/-- R138: the six properties of DEGRADE. -/
def Obligations.DegradeLaws : Prop :=
  ∀ x noise density d u : Int, -32768 ≤ x → x ≤ 32767 → 0 ≤ noise → noise ≤ 60 → 0 ≤ density → density ≤ 100 →
    0 ≤ d → d ≤ 99 → -32768 ≤ u → u ≤ 32767 →
    degrade x noise 0 d u = x ∧
    degrade x noise 100 d u = clipSample (crush noise x + noiseTerm noise u) ∧
    (d < density → degrade x 0 density d u = Int.fdiv x 128 * 128) ∧
    (-32768 ≤ degrade x noise density d u ∧ degrade x noise density d u ≤ 32767) ∧
    (d < density → ∀ x', Int.fdiv x' (2 ^ crushShift noise) = Int.fdiv x (2 ^ crushShift noise) →
      degrade x' noise density d u = degrade x noise density d u) ∧
    (density ≤ d → degrade x noise density d u = x)

/-- R139: when a fired lane returns its input: exactly when the clamped sum is the input, and in each of the cases (a) to (d); with
the rule's example off the grid (conflict C2). -/
def Obligations.FiredLaneMayReturnItsInput : Prop :=
  (∀ x noise density d u : Int, -32768 ≤ x → x ≤ 32767 → 0 ≤ noise → noise ≤ 60 → -32768 ≤ u → u ≤ 32767 → d < density →
    (degrade x noise density d u = x ↔ min (max (crush noise x + noiseTerm noise u) (-32768)) 32767 = x) ∧
    ((2 : Int) ^ crushShift noise ∣ x → noiseTerm noise u = 0 → degrade x noise density d u = x) ∧
    (noiseTerm noise u = x - crush noise x → degrade x noise density d u = x) ∧
    (x = -32768 → noiseTerm noise u ≤ 0 → degrade x noise density d u = x) ∧
    (x = 32767 → 32767 ≤ crush noise x + noiseTerm noise u → degrade x noise density d u = x) ∧
    (degrade x noise density d u = x → noiseTerm noise u = x - crush noise x ∨
      (x = -32768 ∧ noiseTerm noise u ≤ 0) ∨ (x = 32767 ∧ 32767 ≤ crush noise x + noiseTerm noise u))) ∧
  (degrade 3276 20 100 0 1020 = 3276 ∧ crush 20 3276 = 3072 ∧ noiseTerm 20 1020 = 204)

/-- Derived from R168: the ranges of the quantities PROC computes, over all legal inputs. -/
def Obligations.ArithmeticStaysInItsRanges : Prop :=
  ∀ x noise u c m : Int, -32768 ≤ x → x ≤ 32767 → 0 ≤ noise → noise ≤ 60 → -32768 ≤ u → u ≤ 32767 →
    -32768 ≤ c → c ≤ 32767 → 0 ≤ m → m ≤ 32768 →
    (0 ≤ Int.fdiv noise 10 ∧ Int.fdiv noise 10 ≤ 6) ∧ (7 ≤ crushShift noise ∧ crushShift noise ≤ 13) ∧
    (-256 ≤ Int.fdiv x (2 ^ crushShift noise) ∧ Int.fdiv x (2 ^ crushShift noise) ≤ 255) ∧
    (-32768 ≤ crush noise x ∧ crush noise x ≤ 32640) ∧
    (-1966080 ≤ u * noise ∧ u * noise ≤ 1966020) ∧
    (-19661 ≤ noiseTerm noise u ∧ noiseTerm noise u ≤ 19660) ∧
    (-(2 ^ 30) ≤ c * (32768 - m) + x * m ∧ c * (32768 - m) + x * m ≤ 32767 * 32768)

/-! ### Invariants -/

/-- R30: every step from a state with legal registers answers a state with legal registers. -/
def Obligations.StepKeepsLegalParameters : Prop :=
  ∀ s : State, s.LegalParams → ∃ t, step s = .next t ∧ t.LegalParams

/-- R28: every step keeps the form of STATUS: reserved bits 0, ILLC 0 while ILL is 0, and only causes 1 to 5 recorded. -/
def Obligations.StepKeepsTheFormOfStatus : Prop :=
  ∀ s : State, s.LegalStatus → ∃ t, step s = .next t ∧ t.LegalStatus

/-- R161: the DMB holds no buffer after a step if it held none before. -/
def Obligations.StepLeavesNoBufferHeld : Prop :=
  ∀ s : State, s.HoldsNoBuffer → ∃ t, step s = .next t ∧ t.HoldsNoBuffer

/-- R39: the state after reset, in any legal build, with anything presented by the agents and anything in the snapshot and the random
source, has the listed values and meets the three invariants. -/
def Obligations.LaunchStateIsLegal : Prop :=
  State.Launched State.reset ∧
  ∀ s : State, s.Launched →
    s.mix = 0#16 ∧ s.noise = 20#6 ∧ s.density = 5#7 ∧ s.feedback = 0#15 ∧ s.delay = 1#9 ∧ s.status = 0#16 ∧
    s.fbGain = 0#15 ∧ s.delayMs = 1#9 ∧ readReg .id s = 0xD1C7#16 ∧ s.LegalParams ∧ s.LegalStatus ∧ s.HoldsNoBuffer

/-- R179, R30: at every point of every run from a launch state, whatever is presented, fb_gain = FEEDBACK ≤ FB_MAX ≤ 0x7FFF: the loop
gain is below 1.0; and the parameters (R30) and STATUS (R28, R192) stay legal and no buffer is held (R161). That FB_MAX stands in the
state and no step changes it is the model's choice (log entry 5). -/
def Obligations.EveryRunStaysBounded : Prop :=
  ∀ (n : Nat) (s : State), s.Launched → ∃ t, core.run n s = .next t ∧
    t.fbGain = t.feedback ∧ t.fbGain.toNat ≤ t.fbMax.toNat ∧ t.fbMax = s.fbMax ∧ t.fbMax.toNat ≤ 0x7FFF ∧
    t.LegalParams ∧ t.LegalStatus ∧ t.HoldsNoBuffer

/-- R211: only an assertion of reset clears ILL and ILLC: any other step from a state with ILL = 1 keeps both. An assertion of reset
clears PL and PR too, and every PROC writes them anew. -/
def Obligations.IllegalFlagIsStickyUntilReset : Prop :=
  (∀ s : State, statusILL s.status = true → ∃ t, step s = .next t ∧
    ((∀ ts, s.turns ≠ .assertReset :: ts) → statusILL t.status = true ∧ statusILLC t.status = statusILLC s.status) ∧
    ((∃ ts, s.turns = .assertReset :: ts) → t.status = 0#16)) ∧
  (∀ s : State, ∃ t, exec .proc s = .next t ∧
    (statusPL t.status = true ↔ (periodInput s).left.clean ≠ none ∧ (periodInput s).left.dirty ≠ none) ∧
    (statusPR t.status = true ↔ (periodInput s).right.clean ≠ none ∧ (periodInput s).right.dirty ≠ none))

/-! ### Illegal words, ports and frames -/

/-- R191: a step on an illegal word takes the word and the turn and writes STATUS alone: ILL is set, ILLC takes the cause only if ILL
was 0, PL, PR and the reserved bits stay; no event, no response, no register. -/
def Obligations.IllegalWordIsDiscardedAndRecorded : Prop :=
  ∀ (s : State) (p : Port) (ts : List Turn) (w : Word) (ws : List Word) (c : Cause),
    s.turns = .command p :: ts → s.waiting p = w :: ws → s.inReset = false → decode p w = .illegal c →
    ∃ t, step s = .next t ∧ t.turns = ts ∧ t.waiting p = ws ∧ (∀ q, q ≠ p → t.waiting q = s.waiting q) ∧
      statusILL t.status = true ∧
      statusILLC t.status = (if statusILL s.status = true then statusILLC s.status else c.code) ∧
      statusPL t.status = statusPL s.status ∧ statusPR t.status = statusPR s.status ∧
      statusReserved t.status = statusReserved s.status ∧
      { t with status := s.status, turns := s.turns, ctrlIn := s.ctrlIn, periodIn := s.periodIn } = s

/-- R192: the cause codes as the value of STATUS: the first illegal word since reset adds 4 (ILL) and 16 times its code. -/
def Obligations.FirstIllegalWordRecordsItsCode : Prop :=
  ∀ (s : State) (p : Port) (w : Word) (c : Cause), decode p w = .illegal c → statusILL s.status = false →
    statusILLC s.status = 0#3 →
    ∃ t, applyWord p w s = .next t ∧ t.status.toNat = s.status.toNat + 4 + 16 *
      (match c with
        | .reservedOp => 1
        | .wrongPort => 2
        | .reservedField => 3
        | .reservedReg => 4
        | .readOnly => 5)

/-- R59: a step that serves the PERIOD port writes no parameter register; a WRP word there is illegal, cause 2. -/
def Obligations.PeriodPortWritesNoParameter : Prop :=
  (∀ (s : State) (ts : List Turn), s.turns = .command .period :: ts → ∃ t, step s = .next t ∧
    t.mix = s.mix ∧ t.noise = s.noise ∧ t.density = s.density ∧ t.feedback = s.feedback ∧ t.delay = s.delay) ∧
  (∀ v : BitVec 28, decode .period (0x1#4 ++ v) = .illegal .wrongPort)

/-- R31: the output ports equal their registers in every state, and a step changes one only where it applies a WRP to that register or
resets the block. -/
def Obligations.OutputPortsMoveOnlyWithTheirRegisters : Prop :=
  ∀ s : State, s.fbGain = s.feedback ∧ s.delayMs = s.delay ∧ ∃ t, step s = .next t ∧
    (t.fbGain ≠ s.fbGain → (∃ ts, s.turns = .assertReset :: ts) ∨
      ∃ (ts : List Turn) (w : Word) (ws : List Word) (imm : Half), s.turns = .command .ctrl :: ts ∧
        s.ctrlIn = w :: ws ∧ s.inReset = false ∧ decode .ctrl w = .legal (.wrpFeedback imm)) ∧
    (t.delayMs ≠ s.delayMs → (∃ ts, s.turns = .assertReset :: ts) ∨
      ∃ (ts : List Turn) (w : Word) (ws : List Word) (imm : Half), s.turns = .command .ctrl :: ts ∧
        s.ctrlIn = w :: ws ∧ s.inReset = false ∧ decode .ctrl w = .legal (.wrpDelay imm))

/-- R32 (its second sentence): no command writes more than one parameter register. -/
def Obligations.NoCommandWritesTwoParameters : Prop :=
  ∀ (i : Instr) (s : State), ∃ t, exec i s = .next t ∧
    ∀ r r' : Reg, isParam r = true → isParam r' = true → r ≠ r' → readReg r t ≠ readReg r s → readReg r' t = readReg r' s

/-- R38, R28: of the commands only PROC writes STATUS, and of its bits only PL and PR. The frame besides: only PROC loads the snapshot
(R33); the history only grows (R36); no command changes the build (R7, log entry 5), the reset input (log entry 9), the ports' queues or
the turns (log entry 1); only PROC uses up an engine input or moves on the indices of the free inputs and draws (log entries 3 and 4). The
clauses with a log entry are about the model's own fields. -/
def Obligations.CommandsLeaveTheRestUnchanged : Prop :=
  ∀ (i : Instr) (s : State), ∃ t, exec i s = .next t ∧
    (i ≠ .proc → t.status = s.status ∧ t.snapshot = s.snapshot ∧ t.engineIn = s.engineIn ∧ t.periods = s.periods ∧
      t.rng = s.rng) ∧
    statusILL t.status = statusILL s.status ∧ statusILLC t.status = statusILLC s.status ∧
    statusReserved t.status = statusReserved s.status ∧
    t.fbMax = s.fbMax ∧ t.inReset = s.inReset ∧ t.ctrlIn = s.ctrlIn ∧ t.periodIn = s.periodIn ∧ t.turns = s.turns ∧
    ∃ es, t.events = s.events ++ es

/-! ### Reset -/

/-- R210: asserting reset puts every register at its reset value, whatever the state was. That the build, the agents' inputs and the
recorded history stay is the model's choice (log entries 8 and 9). -/
def Obligations.AssertedResetRestoresTheRegisters : Prop :=
  ∀ (s : State) (ts : List Turn), s.turns = .assertReset :: ts → ∃ t, step s = .next t ∧
    t.mix = 0#16 ∧ t.noise = 20#6 ∧ t.density = 5#7 ∧ t.feedback = 0#15 ∧ t.delay = 1#9 ∧ t.status = 0#16 ∧
    t.fbGain = 0#15 ∧ t.delayMs = 1#9 ∧ t.inReset = true ∧ t.turns = ts ∧ t.fbMax = s.fbMax ∧ t.events = s.events ∧
    t.ctrlIn = s.ctrlIn ∧ t.periodIn = s.periodIn ∧ t.engineIn = s.engineIn

/-- R212 (its first sentence): a word presented while reset is asserted is dropped: it is neither applied nor recorded as illegal.
A release of reset ends that and changes nothing else, so that the merged order goes on with the first command after it: from the
released state on, whatever it was before, the next waiting word of a port whose turn it is is applied. That reset is two turns and
a level, and that waiting words, turns, inputs and history stay over a release, is the model's choice (log entry 9). -/
def Obligations.WordsDuringResetAreDropped : Prop :=
  (∀ (s : State) (p : Port) (ts : List Turn) (w : Word) (ws : List Word),
    s.turns = .command p :: ts → s.waiting p = w :: ws → s.inReset = true →
    ∃ t, step s = .next t ∧ t.turns = ts ∧ t.waiting p = ws ∧ (∀ q, q ≠ p → t.waiting q = s.waiting q) ∧
      { t with turns := s.turns, ctrlIn := s.ctrlIn, periodIn := s.periodIn } = s) ∧
  (∀ (s : State) (ts : List Turn), s.turns = .releaseReset :: ts →
    ∃ t, step s = .next t ∧ t.inReset = false ∧ t.turns = ts ∧ { t with inReset := s.inReset, turns := s.turns } = s) ∧
  (∀ (s : State) (p : Port) (ts : List Turn) (w : Word) (ws : List Word),
    s.turns = .releaseReset :: .command p :: ts → s.waiting p = w :: ws →
    ∃ t s' : State, step s = .next t ∧ step t = applyWord p w s' ∧ s'.inReset = false ∧ s'.turns = ts ∧ s'.waiting p = ws ∧
      (∀ q, q ≠ p → s'.waiting q = s.waiting q) ∧
      { s' with inReset := s.inReset, turns := s.turns, ctrlIn := s.ctrlIn, periodIn := s.periodIn } = s)

/-- Derived from R213: the first PROC after reset, in any build and whatever is presented, emits each processed channel's clean block
unchanged, and `fb_gain` carries 0. -/
def Obligations.FirstProcAfterResetIsDry : Prop :=
  ∀ s : State, s.Launched →
    ∃ t, exec .proc s = .next t ∧ t.fbGain = 0#15 ∧
      t.events =
        (match (periodInput s).left.clean, (periodInput s).left.dirty with
          | some c, some _ => [Event.acq .clean .left, .acq .dirty .left, .emit .left c, .rel .clean .left, .rel .dirty .left]
          | _, _ => []) ++
        (match (periodInput s).right.clean, (periodInput s).right.dirty with
          | some c, some _ =>
            [Event.acq .clean .right, .acq .dirty .right, .emit .right c, .rel .clean .right, .rel .dirty .right]
          | _, _ => [])

/-! ### The merged order -/

/-- R57: running a state's turns (none of them a reset edge) applies the words of the merged order one at a time, in that order, each
atomically, and does nothing else but take the turns and exactly those words away. The queues and turns are the model's form of the
two streams and their order (log entry 1), and that a turn of a port with no word waiting passes is the model's choice (log entry 2). -/
def Obligations.RunAppliesTheMergedOrder : Prop :=
  ∀ s : State, s.inReset = false → (∀ t ∈ s.turns, ∃ p, t = .command p) →
    ∃ t, core.run s.turns.length s = .next t ∧ t.turns = [] ∧
      (∀ p, s.waiting p = wordsOf p (merged s.turns s.ctrlIn s.periodIn) ++ t.waiting p) ∧
      applyAll (merged s.turns s.ctrlIn s.periodIn) s =
        .next { t with turns := s.turns, ctrlIn := s.ctrlIn, periodIn := s.periodIn }

/-- R57: the merged order keeps each port's own order: each port's words in it are an initial part of that port's stream. -/
def Obligations.MergedOrderKeepsEachPortsOrder : Prop :=
  ∀ (ts : List Turn) (cs ps : List Word),
    wordsOf .ctrl (merged ts cs ps) <+: cs ∧ wordsOf .period (merged ts cs ps) <+: ps

/-- R57: every interleaving of the two port streams is the merged order of some turns. -/
def Obligations.EveryInterleavingIsAMergedOrder : Prop :=
  ∀ m : List (Port × Word),
    merged (m.map fun q => .command q.1) (wordsOf .ctrl m) (wordsOf .period m) = m

/-! ### Assembler -/

/-- R83: each pseudo-instruction's word and effect: dry makes the output the clean block, wet the degraded dirty block, bypass stops
every lane from firing, nofb clears the gain and fbmax sets it to FB_MAX. -/
def Obligations.PseudoInstructionsHaveTheirEffects : Prop :=
  encode (Pseudo.expand .dry) = 0x10000000#32 ∧ encode (Pseudo.expand .wet) = 0x10008000#32 ∧
  encode (Pseudo.expand .bypass) = 0x12000000#32 ∧ encode (Pseudo.expand .nofb) = 0x13000000#32 ∧
  encode (Pseudo.expand .fbmax) = 0x1300FFFF#32 ∧
  ∀ s : State,
    (∃ t, exec (Pseudo.expand .dry) s = .next t ∧
      ∀ c x ds, mixBlock ⟨t.mix, t.noise, t.density⟩ c x ds = c) ∧
    (∃ t, exec (Pseudo.expand .wet) s = .next t ∧
      ∀ (c x : Block) (ds : DrawBlock) (i : Nat) (h : i < Config.N), ((mixBlock ⟨t.mix, t.noise, t.density⟩ c x ds)[i]).toInt =
        degrade (x[i]).toInt t.noise.toNat t.density.toNat (ds[i]).d.val (ds[i]).u.toInt) ∧
    (∃ t, exec (Pseudo.expand .bypass) s = .next t ∧
      ∀ (x noise u : Int) (d : Fin 100), degrade x noise t.density.toNat d.val u = x) ∧
    (∃ t, exec (Pseudo.expand .nofb) s = .next t ∧ t.feedback = 0#15) ∧
    (∃ t, exec (Pseudo.expand .fbmax) s = .next t ∧ t.feedback = s.fbMax)

/-- Derived from R82: the assembler accepts a WRP of the five writable registers exactly for an immediate in [0, 65535], with the rule's
word, and never clamps; RDP takes all seven registers. -/
def Obligations.AssemblerAcceptsExactlyTheImmediateRange : Prop :=
  (∀ (r : Reg) (imm : Int) (w : Word), assembleStmt (.wrp r imm) = some w ↔
    isParam r = true ∧ 0 ≤ imm ∧ imm ≤ 65535 ∧
      w.toNat = 1 * 2 ^ 28 + (regIndex r).toNat * 2 ^ 24 + imm.toNat) ∧
  (∀ r : Reg, assembleStmt (.rdp r) = some (encode (rdpOf r))) ∧
  assembleStmt .nop = some (encode .nop) ∧ assembleStmt .proc = some (encode .proc)
end

