-- ==== Sys2Proof/Laws/Arith.lean ====
section
/-! SUPPORT. What the integer primitives do: floor division is the greatest quotient, clamps bound, patterns read back. -/

namespace Sys2Proof.Machine

/-- `floorDiv` is the floor (R9): the greatest q with q*b ≤ a. -/
theorem floorDiv_spec (a b : Int) (hb : 0 < b) : floorDiv a b * b ≤ a ∧ a < (floorDiv a b + 1) * b := by
  have h1 := Int.emod_add_mul_ediv a b
  have h2 := Int.emod_nonneg a hb.ne'
  have h3 := Int.emod_lt_of_pos a hb
  unfold floorDiv
  constructor <;> nlinarith

/-- The floor is the only integer with that property. -/
theorem floorDiv_unique (a b q : Int) (hb : 0 < b) (h1 : q * b ≤ a) (h2 : a < (q + 1) * b) : floorDiv a b = q := by
  have h := floorDiv_spec a b hb
  have h3 : floorDiv a b < q + 1 := lt_of_mul_lt_mul_right (lt_of_le_of_lt h.1 h2) hb.le
  have h4 : q < floorDiv a b + 1 := lt_of_mul_lt_mul_right (lt_of_le_of_lt h1 h.2) hb.le
  omega

/-- For a positive divisor the floor is also the library's division toward minus infinity. -/
theorem floorDiv_eq_fdiv (a b : Int) (hb : 0 < b) : floorDiv a b = Int.fdiv a b :=
  (Int.fdiv_eq_ediv_of_nonneg a hb.le).symm

theorem clampInt_mem (x lo hi : Int) (h : lo ≤ hi) : lo ≤ clampInt x lo hi ∧ clampInt x lo hi ≤ hi := by
  unfold clampInt; omega

theorem clampInt_of_mem (x lo hi : Int) (h1 : lo ≤ x) (h2 : x ≤ hi) : clampInt x lo hi = x := by
  unfold clampInt; omega

theorem clipSample_mem (y : Int) : -32768 ≤ clipSample y ∧ clipSample y ≤ 32767 :=
  clampInt_mem y (-32768) 32767 (by decide)

theorem clipSample_of_mem (y : Int) (h1 : -32768 ≤ y) (h2 : y ≤ 32767) : clipSample y = y :=
  clampInt_of_mem y _ _ h1 h2

theorem sext16_mem (v : BitVec 16) : -32768 ≤ sext16 v ∧ sext16 v ≤ 32767 := by
  have h1 := BitVec.le_toInt v
  have h2 := BitVec.toInt_lt (x := v)
  unfold sext16
  constructor <;> norm_num at h1 h2 ⊢ <;> omega

/-- A value in the sample range survives the pattern (R9, R115). -/
theorem sext16_bits16 (x : Int) (h1 : -32768 ≤ x) (h2 : x ≤ 32767) : sext16 (bits16 x) = x := by
  unfold sext16 bits16
  rw [BitVec.toInt_ofInt, Int.bmod_eq_of_le] <;> norm_num <;> omega

theorem bits16_sext16 (v : BitVec 16) : bits16 (sext16 v) = v := BitVec.ofInt_toInt

/-- The crush depth of a legal NOISE is its table entry, without the clamp (R133). -/
theorem crushBits_of_legal (noise : Int) (h1 : 0 ≤ noise) (h2 : noise ≤ 60) : crushBits noise = 8 - noise / 10 := by
  unfold crushBits clampInt floorDiv Config.bitsMin Config.bitsMax
  omega

/-- Between 7 and 13 low bits are cleared, whatever the noise argument. -/
theorem crushShift_mem (noise : Int) : 7 ≤ crushShift noise ∧ crushShift noise ≤ 13 := by
  unfold crushShift crushBits clampInt floorDiv Config.bitsMin Config.bitsMax
  omega

/-- DEGRADE either returns its sample or a clipped sum. -/
theorem degrade_cases (x noise density d u : Int) :
    (density ≤ d ∧ degrade x noise density d u = x) ∨
      (d < density ∧ degrade x noise density d u = clipSample (crush noise x + noiseTerm noise u)) := by
  unfold degrade
  split
  · exact .inl ⟨‹_›, rfl⟩
  · exact .inr ⟨by omega, rfl⟩

/-- DEGRADE stays in the sample range (R130). -/
theorem degrade_mem (x noise density d u : Int) (h1 : -32768 ≤ x) (h2 : x ≤ 32767) :
    -32768 ≤ degrade x noise density d u ∧ degrade x noise density d u ≤ 32767 := by
  obtain ⟨-, h⟩ | ⟨-, h⟩ := degrade_cases x noise density d u
  · rw [h]; exact ⟨h1, h2⟩
  · rw [h]; exact clipSample_mem _

end Sys2Proof.Machine
end

