-- ==== Sys2Proof/Laws/Flags.lean ====
section
/-! SUPPORT. What the two updates of STATUS do to each of its bits and fields, and STATUS from its fields. -/

namespace Sys2Proof.Machine

/-- The bits after a PROC: PL and PR are written, the others stay (R162). -/
theorem getLsbD_setProcessed (st : BitVec 16) (pl pr : Bool) (i : Nat) :
    (setProcessed st pl pr).getLsbD i = if i = 0 then pl else if i = 1 then pr else st.getLsbD i := by
  match i with
  | 0 => simp only [setProcessed, BitVec.getLsbD_append]; simp
  | 1 => simp only [setProcessed, BitVec.getLsbD_append]; simp
  | i + 2 =>
    have h : 2 + (i + 2 - 1 - 1) = i + 2 := by omega
    have h1 : ¬ i + 2 < 1 := by omega
    have h2 : ¬ i + 2 - 1 < 1 := by omega
    simp only [setProcessed, BitVec.getLsbD_append, BitVec.getLsbD_extractLsb', h, h1, h2, if_false]
    by_cases hi : i < 14
    · simp [hi]
    · have : st.getLsbD (i + 2) = false := BitVec.getLsbD_of_ge st _ (by omega)
      simpa [hi] using this

/-- The bits after an illegal word: ILL is set, ILLC holds the first cause, the others stay (R191). -/
theorem getLsbD_recordIllegal (st : BitVec 16) (c : Cause) (i : Nat) :
    (recordIllegal st c).getLsbD i =
      if i = 2 then true
      else if 4 ≤ i ∧ i < 7 then (if statusILL st then statusILLC st else c.code).getLsbD (i - 4)
      else st.getLsbD i := by
  match i with
  | 0 => simp only [recordIllegal, BitVec.getLsbD_append]; simp
  | 1 => simp only [recordIllegal, BitVec.getLsbD_append]; simp
  | 2 => simp only [recordIllegal, BitVec.getLsbD_append]; simp
  | 3 => simp only [recordIllegal, BitVec.getLsbD_append]; simp
  | i + 4 =>
    have h1 : ¬ i + 4 < 2 := by omega
    have h2 : ¬ i + 4 - 2 < 1 := by omega
    have h3 : ¬ i + 4 - 2 - 1 < 1 := by omega
    have h4 : i + 4 - 2 - 1 - 1 = i := by omega
    have h5 : ¬ i + 4 = 2 := by omega
    have h6 : i + 4 - 4 = i := by omega
    simp only [recordIllegal, BitVec.getLsbD_append, BitVec.getLsbD_extractLsb', h1, h2, h3, h4, h5, h6, if_false]
    by_cases hi : i < 3
    · have h7 : 4 ≤ i + 4 ∧ i + 4 < 7 := by omega
      rw [if_pos hi, if_pos h7]
    · have h7 : ¬ (4 ≤ i + 4 ∧ i + 4 < 7) := by omega
      have h8 : 7 + (i - 3) = i + 4 := by omega
      rw [if_neg hi, if_neg h7, h8]
      by_cases hi' : i - 3 < 9
      · simp [hi']
      · have : st.getLsbD (i + 4) = false := BitVec.getLsbD_of_ge st _ (by omega)
        simp [hi', this]

@[simp] theorem statusPL_setProcessed (st : BitVec 16) (pl pr : Bool) : statusPL (setProcessed st pl pr) = pl := by
  simp only [statusPL, getLsbD_setProcessed]; rfl

@[simp] theorem statusPR_setProcessed (st : BitVec 16) (pl pr : Bool) : statusPR (setProcessed st pl pr) = pr := by
  simp only [statusPR, getLsbD_setProcessed]; rfl

@[simp] theorem statusILL_setProcessed (st : BitVec 16) (pl pr : Bool) :
    statusILL (setProcessed st pl pr) = statusILL st := by
  simp only [statusILL, getLsbD_setProcessed]; rfl

/-- A slice of STATUS from bit 2 up survives a PROC. -/
theorem extractLsb'_setProcessed (st : BitVec 16) (pl pr : Bool) (a n : Nat) (h : 2 ≤ a) :
    (setProcessed st pl pr).extractLsb' a n = st.extractLsb' a n := by
  apply BitVec.eq_of_getLsbD_eq
  intro i hi
  have h0 : ¬ a + i = 0 := by omega
  have h1 : ¬ a + i = 1 := by omega
  simp only [BitVec.getLsbD_extractLsb', getLsbD_setProcessed, h0, h1, if_false]

@[simp] theorem statusILLC_setProcessed (st : BitVec 16) (pl pr : Bool) :
    statusILLC (setProcessed st pl pr) = statusILLC st :=
  extractLsb'_setProcessed st pl pr 4 3 (by decide)

@[simp] theorem statusReserved_setProcessed (st : BitVec 16) (pl pr : Bool) :
    statusReserved (setProcessed st pl pr) = statusReserved st := by
  simp only [statusReserved, extractLsb'_setProcessed st pl pr 7 9 (by decide),
    extractLsb'_setProcessed st pl pr 3 1 (by decide)]

@[simp] theorem statusPL_recordIllegal (st : BitVec 16) (c : Cause) : statusPL (recordIllegal st c) = statusPL st := by
  simp only [statusPL, getLsbD_recordIllegal]; rfl

@[simp] theorem statusPR_recordIllegal (st : BitVec 16) (c : Cause) : statusPR (recordIllegal st c) = statusPR st := by
  simp only [statusPR, getLsbD_recordIllegal]; rfl

@[simp] theorem statusILL_recordIllegal (st : BitVec 16) (c : Cause) : statusILL (recordIllegal st c) = true := by
  simp only [statusILL, getLsbD_recordIllegal]; rfl

@[simp] theorem statusILLC_recordIllegal (st : BitVec 16) (c : Cause) :
    statusILLC (recordIllegal st c) = if statusILL st then statusILLC st else c.code := by
  apply BitVec.eq_of_getLsbD_eq
  intro i hi
  have h2 : ¬ 4 + i = 2 := by omega
  have h4 : 4 ≤ 4 + i ∧ 4 + i < 7 := by omega
  have h5 : 4 + i - 4 = i := by omega
  rw [statusILLC, BitVec.getLsbD_extractLsb', getLsbD_recordIllegal, if_neg h2, if_pos h4, h5]
  simp only [hi, decide_true, Bool.true_and]

@[simp] theorem statusReserved_recordIllegal (st : BitVec 16) (c : Cause) :
    statusReserved (recordIllegal st c) = statusReserved st := by
  have h3 : (recordIllegal st c).extractLsb' 3 1 = st.extractLsb' 3 1 := by
    apply BitVec.eq_of_getLsbD_eq
    intro i hi
    have h : ¬ 3 + i = 2 := by omega
    have h' : ¬ (4 ≤ 3 + i ∧ 3 + i < 7) := by omega
    simp only [BitVec.getLsbD_extractLsb', getLsbD_recordIllegal, h, h', if_false]
  have h7 : (recordIllegal st c).extractLsb' 7 9 = st.extractLsb' 7 9 := by
    apply BitVec.eq_of_getLsbD_eq
    intro i hi
    have h : ¬ 7 + i = 2 := by omega
    have h' : ¬ (4 ≤ 7 + i ∧ 7 + i < 7) := by omega
    simp only [BitVec.getLsbD_extractLsb', getLsbD_recordIllegal, h, h', if_false]
  simp only [statusReserved, h3, h7]

/-- The value of STATUS from its fields (R28). -/
theorem status_toNat (st : BitVec 16) :
    st.toNat = (statusPL st).toNat + 2 * (statusPR st).toNat + 4 * (statusILL st).toNat +
      8 * ((statusReserved st).toNat % 2) + 16 * (statusILLC st).toNat + 128 * ((statusReserved st).toNat / 2) := by
  have hlt := st.isLt
  simp only [statusPL, statusPR, statusILL, statusILLC, statusReserved, BitVec.getLsbD, Nat.testBit, BitVec.toNat_append,
    BitVec.extractLsb'_toNat, Nat.shiftRight_eq_div_pow, Nat.one_and_eq_mod_two]
  have e : ∀ a : Nat, (a % 2 != 0).toNat = a % 2 := by
    intro a
    obtain h | h := Nat.mod_two_eq_zero_or_one a <;> simp [h]
  have e2 : (st.toNat / 2 ^ 7 % 2 ^ 9) <<< 1 ||| st.toNat / 2 ^ 3 % 2 ^ 1 =
      (st.toNat / 2 ^ 7 % 2 ^ 9) * 2 + st.toNat / 2 ^ 3 % 2 ^ 1 := by
    rw [Nat.shiftLeft_eq, ← Nat.shiftLeft_eq, Nat.shiftLeft_add_eq_or_of_lt (by omega)]
  rw [e2, e, e, e]
  norm_num at hlt ⊢
  omega

end Sys2Proof.Machine
end

