-- ==== Sys2Proof/Laws/State.lean ====
section
/-! SUPPORT. One lemma per field per update of State, each true by unfolding the update once. -/

namespace Sys2Proof.Machine

/-! ### withMix -/

@[simp] theorem State.withMix_mix (s : State) (v : BitVec 16) : (s.withMix v).mix = v := rfl
@[simp] theorem State.withMix_noise (s : State) (v : BitVec 16) : (s.withMix v).noise = s.noise := rfl
@[simp] theorem State.withMix_density (s : State) (v : BitVec 16) : (s.withMix v).density = s.density := rfl
@[simp] theorem State.withMix_feedback (s : State) (v : BitVec 16) : (s.withMix v).feedback = s.feedback := rfl
@[simp] theorem State.withMix_delay (s : State) (v : BitVec 16) : (s.withMix v).delay = s.delay := rfl
@[simp] theorem State.withMix_status (s : State) (v : BitVec 16) : (s.withMix v).status = s.status := rfl
@[simp] theorem State.withMix_snapshot (s : State) (v : BitVec 16) : (s.withMix v).snapshot = s.snapshot := rfl
@[simp] theorem State.withMix_rng (s : State) (v : BitVec 16) : (s.withMix v).rng = s.rng := rfl
@[simp] theorem State.withMix_fbMax (s : State) (v : BitVec 16) : (s.withMix v).fbMax = s.fbMax := rfl
@[simp] theorem State.withMix_inReset (s : State) (v : BitVec 16) : (s.withMix v).inReset = s.inReset := rfl
@[simp] theorem State.withMix_ctrlIn (s : State) (v : BitVec 16) : (s.withMix v).ctrlIn = s.ctrlIn := rfl
@[simp] theorem State.withMix_periodIn (s : State) (v : BitVec 16) : (s.withMix v).periodIn = s.periodIn := rfl
@[simp] theorem State.withMix_turns (s : State) (v : BitVec 16) : (s.withMix v).turns = s.turns := rfl
@[simp] theorem State.withMix_engineIn (s : State) (v : BitVec 16) : (s.withMix v).engineIn = s.engineIn := rfl
@[simp] theorem State.withMix_periods (s : State) (v : BitVec 16) : (s.withMix v).periods = s.periods := rfl
@[simp] theorem State.withMix_events (s : State) (v : BitVec 16) : (s.withMix v).events = s.events := rfl

/-! ### withNoise -/

@[simp] theorem State.withNoise_mix (s : State) (v : BitVec 6) : (s.withNoise v).mix = s.mix := rfl
@[simp] theorem State.withNoise_noise (s : State) (v : BitVec 6) : (s.withNoise v).noise = v := rfl
@[simp] theorem State.withNoise_density (s : State) (v : BitVec 6) : (s.withNoise v).density = s.density := rfl
@[simp] theorem State.withNoise_feedback (s : State) (v : BitVec 6) : (s.withNoise v).feedback = s.feedback := rfl
@[simp] theorem State.withNoise_delay (s : State) (v : BitVec 6) : (s.withNoise v).delay = s.delay := rfl
@[simp] theorem State.withNoise_status (s : State) (v : BitVec 6) : (s.withNoise v).status = s.status := rfl
@[simp] theorem State.withNoise_snapshot (s : State) (v : BitVec 6) : (s.withNoise v).snapshot = s.snapshot := rfl
@[simp] theorem State.withNoise_rng (s : State) (v : BitVec 6) : (s.withNoise v).rng = s.rng := rfl
@[simp] theorem State.withNoise_fbMax (s : State) (v : BitVec 6) : (s.withNoise v).fbMax = s.fbMax := rfl
@[simp] theorem State.withNoise_inReset (s : State) (v : BitVec 6) : (s.withNoise v).inReset = s.inReset := rfl
@[simp] theorem State.withNoise_ctrlIn (s : State) (v : BitVec 6) : (s.withNoise v).ctrlIn = s.ctrlIn := rfl
@[simp] theorem State.withNoise_periodIn (s : State) (v : BitVec 6) : (s.withNoise v).periodIn = s.periodIn := rfl
@[simp] theorem State.withNoise_turns (s : State) (v : BitVec 6) : (s.withNoise v).turns = s.turns := rfl
@[simp] theorem State.withNoise_engineIn (s : State) (v : BitVec 6) : (s.withNoise v).engineIn = s.engineIn := rfl
@[simp] theorem State.withNoise_periods (s : State) (v : BitVec 6) : (s.withNoise v).periods = s.periods := rfl
@[simp] theorem State.withNoise_events (s : State) (v : BitVec 6) : (s.withNoise v).events = s.events := rfl

/-! ### withDensity -/

@[simp] theorem State.withDensity_mix (s : State) (v : BitVec 7) : (s.withDensity v).mix = s.mix := rfl
@[simp] theorem State.withDensity_noise (s : State) (v : BitVec 7) : (s.withDensity v).noise = s.noise := rfl
@[simp] theorem State.withDensity_density (s : State) (v : BitVec 7) : (s.withDensity v).density = v := rfl
@[simp] theorem State.withDensity_feedback (s : State) (v : BitVec 7) : (s.withDensity v).feedback = s.feedback := rfl
@[simp] theorem State.withDensity_delay (s : State) (v : BitVec 7) : (s.withDensity v).delay = s.delay := rfl
@[simp] theorem State.withDensity_status (s : State) (v : BitVec 7) : (s.withDensity v).status = s.status := rfl
@[simp] theorem State.withDensity_snapshot (s : State) (v : BitVec 7) : (s.withDensity v).snapshot = s.snapshot := rfl
@[simp] theorem State.withDensity_rng (s : State) (v : BitVec 7) : (s.withDensity v).rng = s.rng := rfl
@[simp] theorem State.withDensity_fbMax (s : State) (v : BitVec 7) : (s.withDensity v).fbMax = s.fbMax := rfl
@[simp] theorem State.withDensity_inReset (s : State) (v : BitVec 7) : (s.withDensity v).inReset = s.inReset := rfl
@[simp] theorem State.withDensity_ctrlIn (s : State) (v : BitVec 7) : (s.withDensity v).ctrlIn = s.ctrlIn := rfl
@[simp] theorem State.withDensity_periodIn (s : State) (v : BitVec 7) : (s.withDensity v).periodIn = s.periodIn := rfl
@[simp] theorem State.withDensity_turns (s : State) (v : BitVec 7) : (s.withDensity v).turns = s.turns := rfl
@[simp] theorem State.withDensity_engineIn (s : State) (v : BitVec 7) : (s.withDensity v).engineIn = s.engineIn := rfl
@[simp] theorem State.withDensity_periods (s : State) (v : BitVec 7) : (s.withDensity v).periods = s.periods := rfl
@[simp] theorem State.withDensity_events (s : State) (v : BitVec 7) : (s.withDensity v).events = s.events := rfl

/-! ### withFeedback -/

@[simp] theorem State.withFeedback_mix (s : State) (v : BitVec 15) : (s.withFeedback v).mix = s.mix := rfl
@[simp] theorem State.withFeedback_noise (s : State) (v : BitVec 15) : (s.withFeedback v).noise = s.noise := rfl
@[simp] theorem State.withFeedback_density (s : State) (v : BitVec 15) : (s.withFeedback v).density = s.density := rfl
@[simp] theorem State.withFeedback_feedback (s : State) (v : BitVec 15) : (s.withFeedback v).feedback = v := rfl
@[simp] theorem State.withFeedback_delay (s : State) (v : BitVec 15) : (s.withFeedback v).delay = s.delay := rfl
@[simp] theorem State.withFeedback_status (s : State) (v : BitVec 15) : (s.withFeedback v).status = s.status := rfl
@[simp] theorem State.withFeedback_snapshot (s : State) (v : BitVec 15) : (s.withFeedback v).snapshot = s.snapshot := rfl
@[simp] theorem State.withFeedback_rng (s : State) (v : BitVec 15) : (s.withFeedback v).rng = s.rng := rfl
@[simp] theorem State.withFeedback_fbMax (s : State) (v : BitVec 15) : (s.withFeedback v).fbMax = s.fbMax := rfl
@[simp] theorem State.withFeedback_inReset (s : State) (v : BitVec 15) : (s.withFeedback v).inReset = s.inReset := rfl
@[simp] theorem State.withFeedback_ctrlIn (s : State) (v : BitVec 15) : (s.withFeedback v).ctrlIn = s.ctrlIn := rfl
@[simp] theorem State.withFeedback_periodIn (s : State) (v : BitVec 15) : (s.withFeedback v).periodIn = s.periodIn := rfl
@[simp] theorem State.withFeedback_turns (s : State) (v : BitVec 15) : (s.withFeedback v).turns = s.turns := rfl
@[simp] theorem State.withFeedback_engineIn (s : State) (v : BitVec 15) : (s.withFeedback v).engineIn = s.engineIn := rfl
@[simp] theorem State.withFeedback_periods (s : State) (v : BitVec 15) : (s.withFeedback v).periods = s.periods := rfl
@[simp] theorem State.withFeedback_events (s : State) (v : BitVec 15) : (s.withFeedback v).events = s.events := rfl

/-! ### withDelay -/

@[simp] theorem State.withDelay_mix (s : State) (v : BitVec 9) : (s.withDelay v).mix = s.mix := rfl
@[simp] theorem State.withDelay_noise (s : State) (v : BitVec 9) : (s.withDelay v).noise = s.noise := rfl
@[simp] theorem State.withDelay_density (s : State) (v : BitVec 9) : (s.withDelay v).density = s.density := rfl
@[simp] theorem State.withDelay_feedback (s : State) (v : BitVec 9) : (s.withDelay v).feedback = s.feedback := rfl
@[simp] theorem State.withDelay_delay (s : State) (v : BitVec 9) : (s.withDelay v).delay = v := rfl
@[simp] theorem State.withDelay_status (s : State) (v : BitVec 9) : (s.withDelay v).status = s.status := rfl
@[simp] theorem State.withDelay_snapshot (s : State) (v : BitVec 9) : (s.withDelay v).snapshot = s.snapshot := rfl
@[simp] theorem State.withDelay_rng (s : State) (v : BitVec 9) : (s.withDelay v).rng = s.rng := rfl
@[simp] theorem State.withDelay_fbMax (s : State) (v : BitVec 9) : (s.withDelay v).fbMax = s.fbMax := rfl
@[simp] theorem State.withDelay_inReset (s : State) (v : BitVec 9) : (s.withDelay v).inReset = s.inReset := rfl
@[simp] theorem State.withDelay_ctrlIn (s : State) (v : BitVec 9) : (s.withDelay v).ctrlIn = s.ctrlIn := rfl
@[simp] theorem State.withDelay_periodIn (s : State) (v : BitVec 9) : (s.withDelay v).periodIn = s.periodIn := rfl
@[simp] theorem State.withDelay_turns (s : State) (v : BitVec 9) : (s.withDelay v).turns = s.turns := rfl
@[simp] theorem State.withDelay_engineIn (s : State) (v : BitVec 9) : (s.withDelay v).engineIn = s.engineIn := rfl
@[simp] theorem State.withDelay_periods (s : State) (v : BitVec 9) : (s.withDelay v).periods = s.periods := rfl
@[simp] theorem State.withDelay_events (s : State) (v : BitVec 9) : (s.withDelay v).events = s.events := rfl

/-! ### withStatus -/

@[simp] theorem State.withStatus_mix (s : State) (v : BitVec 16) : (s.withStatus v).mix = s.mix := rfl
@[simp] theorem State.withStatus_noise (s : State) (v : BitVec 16) : (s.withStatus v).noise = s.noise := rfl
@[simp] theorem State.withStatus_density (s : State) (v : BitVec 16) : (s.withStatus v).density = s.density := rfl
@[simp] theorem State.withStatus_feedback (s : State) (v : BitVec 16) : (s.withStatus v).feedback = s.feedback := rfl
@[simp] theorem State.withStatus_delay (s : State) (v : BitVec 16) : (s.withStatus v).delay = s.delay := rfl
@[simp] theorem State.withStatus_status (s : State) (v : BitVec 16) : (s.withStatus v).status = v := rfl
@[simp] theorem State.withStatus_snapshot (s : State) (v : BitVec 16) : (s.withStatus v).snapshot = s.snapshot := rfl
@[simp] theorem State.withStatus_rng (s : State) (v : BitVec 16) : (s.withStatus v).rng = s.rng := rfl
@[simp] theorem State.withStatus_fbMax (s : State) (v : BitVec 16) : (s.withStatus v).fbMax = s.fbMax := rfl
@[simp] theorem State.withStatus_inReset (s : State) (v : BitVec 16) : (s.withStatus v).inReset = s.inReset := rfl
@[simp] theorem State.withStatus_ctrlIn (s : State) (v : BitVec 16) : (s.withStatus v).ctrlIn = s.ctrlIn := rfl
@[simp] theorem State.withStatus_periodIn (s : State) (v : BitVec 16) : (s.withStatus v).periodIn = s.periodIn := rfl
@[simp] theorem State.withStatus_turns (s : State) (v : BitVec 16) : (s.withStatus v).turns = s.turns := rfl
@[simp] theorem State.withStatus_engineIn (s : State) (v : BitVec 16) : (s.withStatus v).engineIn = s.engineIn := rfl
@[simp] theorem State.withStatus_periods (s : State) (v : BitVec 16) : (s.withStatus v).periods = s.periods := rfl
@[simp] theorem State.withStatus_events (s : State) (v : BitVec 16) : (s.withStatus v).events = s.events := rfl

/-! ### record -/

@[simp] theorem State.record_mix (s : State) (e : Event) : (s.record e).mix = s.mix := rfl
@[simp] theorem State.record_noise (s : State) (e : Event) : (s.record e).noise = s.noise := rfl
@[simp] theorem State.record_density (s : State) (e : Event) : (s.record e).density = s.density := rfl
@[simp] theorem State.record_feedback (s : State) (e : Event) : (s.record e).feedback = s.feedback := rfl
@[simp] theorem State.record_delay (s : State) (e : Event) : (s.record e).delay = s.delay := rfl
@[simp] theorem State.record_status (s : State) (e : Event) : (s.record e).status = s.status := rfl
@[simp] theorem State.record_snapshot (s : State) (e : Event) : (s.record e).snapshot = s.snapshot := rfl
@[simp] theorem State.record_rng (s : State) (e : Event) : (s.record e).rng = s.rng := rfl
@[simp] theorem State.record_fbMax (s : State) (e : Event) : (s.record e).fbMax = s.fbMax := rfl
@[simp] theorem State.record_inReset (s : State) (e : Event) : (s.record e).inReset = s.inReset := rfl
@[simp] theorem State.record_ctrlIn (s : State) (e : Event) : (s.record e).ctrlIn = s.ctrlIn := rfl
@[simp] theorem State.record_periodIn (s : State) (e : Event) : (s.record e).periodIn = s.periodIn := rfl
@[simp] theorem State.record_turns (s : State) (e : Event) : (s.record e).turns = s.turns := rfl
@[simp] theorem State.record_engineIn (s : State) (e : Event) : (s.record e).engineIn = s.engineIn := rfl
@[simp] theorem State.record_periods (s : State) (e : Event) : (s.record e).periods = s.periods := rfl
@[simp] theorem State.record_events (s : State) (e : Event) : (s.record e).events = s.events ++ [e] := rfl

/-! ### nextPeriod -/

@[simp] theorem State.nextPeriod_mix (s : State) : (s.nextPeriod).mix = s.mix := rfl
@[simp] theorem State.nextPeriod_noise (s : State) : (s.nextPeriod).noise = s.noise := rfl
@[simp] theorem State.nextPeriod_density (s : State) : (s.nextPeriod).density = s.density := rfl
@[simp] theorem State.nextPeriod_feedback (s : State) : (s.nextPeriod).feedback = s.feedback := rfl
@[simp] theorem State.nextPeriod_delay (s : State) : (s.nextPeriod).delay = s.delay := rfl
@[simp] theorem State.nextPeriod_status (s : State) : (s.nextPeriod).status = s.status := rfl
@[simp] theorem State.nextPeriod_snapshot (s : State) : (s.nextPeriod).snapshot = s.snapshot := rfl
@[simp] theorem State.nextPeriod_rng (s : State) : (s.nextPeriod).rng = s.rng + 1 := rfl
@[simp] theorem State.nextPeriod_fbMax (s : State) : (s.nextPeriod).fbMax = s.fbMax := rfl
@[simp] theorem State.nextPeriod_inReset (s : State) : (s.nextPeriod).inReset = s.inReset := rfl
@[simp] theorem State.nextPeriod_ctrlIn (s : State) : (s.nextPeriod).ctrlIn = s.ctrlIn := rfl
@[simp] theorem State.nextPeriod_periodIn (s : State) : (s.nextPeriod).periodIn = s.periodIn := rfl
@[simp] theorem State.nextPeriod_turns (s : State) : (s.nextPeriod).turns = s.turns := rfl
@[simp] theorem State.nextPeriod_engineIn (s : State) : (s.nextPeriod).engineIn = s.engineIn.tail := rfl
@[simp] theorem State.nextPeriod_periods (s : State) : (s.nextPeriod).periods = s.periods + 1 := rfl
@[simp] theorem State.nextPeriod_events (s : State) : (s.nextPeriod).events = s.events := rfl

/-! ### takeSnapshot -/

@[simp] theorem State.takeSnapshot_mix (s : State) : (s.takeSnapshot).mix = s.mix := rfl
@[simp] theorem State.takeSnapshot_noise (s : State) : (s.takeSnapshot).noise = s.noise := rfl
@[simp] theorem State.takeSnapshot_density (s : State) : (s.takeSnapshot).density = s.density := rfl
@[simp] theorem State.takeSnapshot_feedback (s : State) : (s.takeSnapshot).feedback = s.feedback := rfl
@[simp] theorem State.takeSnapshot_delay (s : State) : (s.takeSnapshot).delay = s.delay := rfl
@[simp] theorem State.takeSnapshot_status (s : State) : (s.takeSnapshot).status = s.status := rfl
@[simp] theorem State.takeSnapshot_snapshot (s : State) : (s.takeSnapshot).snapshot = ⟨s.mix, s.noise, s.density⟩ := rfl
@[simp] theorem State.takeSnapshot_rng (s : State) : (s.takeSnapshot).rng = s.rng := rfl
@[simp] theorem State.takeSnapshot_fbMax (s : State) : (s.takeSnapshot).fbMax = s.fbMax := rfl
@[simp] theorem State.takeSnapshot_inReset (s : State) : (s.takeSnapshot).inReset = s.inReset := rfl
@[simp] theorem State.takeSnapshot_ctrlIn (s : State) : (s.takeSnapshot).ctrlIn = s.ctrlIn := rfl
@[simp] theorem State.takeSnapshot_periodIn (s : State) : (s.takeSnapshot).periodIn = s.periodIn := rfl
@[simp] theorem State.takeSnapshot_turns (s : State) : (s.takeSnapshot).turns = s.turns := rfl
@[simp] theorem State.takeSnapshot_engineIn (s : State) : (s.takeSnapshot).engineIn = s.engineIn := rfl
@[simp] theorem State.takeSnapshot_periods (s : State) : (s.takeSnapshot).periods = s.periods := rfl
@[simp] theorem State.takeSnapshot_events (s : State) : (s.takeSnapshot).events = s.events := rfl

/-! ### withReset -/

@[simp] theorem State.withReset_mix (s : State) (b : Bool) : (s.withReset b).mix = s.mix := rfl
@[simp] theorem State.withReset_noise (s : State) (b : Bool) : (s.withReset b).noise = s.noise := rfl
@[simp] theorem State.withReset_density (s : State) (b : Bool) : (s.withReset b).density = s.density := rfl
@[simp] theorem State.withReset_feedback (s : State) (b : Bool) : (s.withReset b).feedback = s.feedback := rfl
@[simp] theorem State.withReset_delay (s : State) (b : Bool) : (s.withReset b).delay = s.delay := rfl
@[simp] theorem State.withReset_status (s : State) (b : Bool) : (s.withReset b).status = s.status := rfl
@[simp] theorem State.withReset_snapshot (s : State) (b : Bool) : (s.withReset b).snapshot = s.snapshot := rfl
@[simp] theorem State.withReset_rng (s : State) (b : Bool) : (s.withReset b).rng = s.rng := rfl
@[simp] theorem State.withReset_fbMax (s : State) (b : Bool) : (s.withReset b).fbMax = s.fbMax := rfl
@[simp] theorem State.withReset_inReset (s : State) (b : Bool) : (s.withReset b).inReset = b := rfl
@[simp] theorem State.withReset_ctrlIn (s : State) (b : Bool) : (s.withReset b).ctrlIn = s.ctrlIn := rfl
@[simp] theorem State.withReset_periodIn (s : State) (b : Bool) : (s.withReset b).periodIn = s.periodIn := rfl
@[simp] theorem State.withReset_turns (s : State) (b : Bool) : (s.withReset b).turns = s.turns := rfl
@[simp] theorem State.withReset_engineIn (s : State) (b : Bool) : (s.withReset b).engineIn = s.engineIn := rfl
@[simp] theorem State.withReset_periods (s : State) (b : Bool) : (s.withReset b).periods = s.periods := rfl
@[simp] theorem State.withReset_events (s : State) (b : Bool) : (s.withReset b).events = s.events := rfl

/-! ### withTurns -/

@[simp] theorem State.withTurns_mix (s : State) (ts : List Turn) : (s.withTurns ts).mix = s.mix := rfl
@[simp] theorem State.withTurns_noise (s : State) (ts : List Turn) : (s.withTurns ts).noise = s.noise := rfl
@[simp] theorem State.withTurns_density (s : State) (ts : List Turn) : (s.withTurns ts).density = s.density := rfl
@[simp] theorem State.withTurns_feedback (s : State) (ts : List Turn) : (s.withTurns ts).feedback = s.feedback := rfl
@[simp] theorem State.withTurns_delay (s : State) (ts : List Turn) : (s.withTurns ts).delay = s.delay := rfl
@[simp] theorem State.withTurns_status (s : State) (ts : List Turn) : (s.withTurns ts).status = s.status := rfl
@[simp] theorem State.withTurns_snapshot (s : State) (ts : List Turn) : (s.withTurns ts).snapshot = s.snapshot := rfl
@[simp] theorem State.withTurns_rng (s : State) (ts : List Turn) : (s.withTurns ts).rng = s.rng := rfl
@[simp] theorem State.withTurns_fbMax (s : State) (ts : List Turn) : (s.withTurns ts).fbMax = s.fbMax := rfl
@[simp] theorem State.withTurns_inReset (s : State) (ts : List Turn) : (s.withTurns ts).inReset = s.inReset := rfl
@[simp] theorem State.withTurns_ctrlIn (s : State) (ts : List Turn) : (s.withTurns ts).ctrlIn = s.ctrlIn := rfl
@[simp] theorem State.withTurns_periodIn (s : State) (ts : List Turn) : (s.withTurns ts).periodIn = s.periodIn := rfl
@[simp] theorem State.withTurns_turns (s : State) (ts : List Turn) : (s.withTurns ts).turns = ts := rfl
@[simp] theorem State.withTurns_engineIn (s : State) (ts : List Turn) : (s.withTurns ts).engineIn = s.engineIn := rfl
@[simp] theorem State.withTurns_periods (s : State) (ts : List Turn) : (s.withTurns ts).periods = s.periods := rfl
@[simp] theorem State.withTurns_events (s : State) (ts : List Turn) : (s.withTurns ts).events = s.events := rfl

/-! ### applyReset -/

@[simp] theorem applyReset_mix (s : State) : (applyReset s).mix = State.reset.mix := rfl
@[simp] theorem applyReset_noise (s : State) : (applyReset s).noise = State.reset.noise := rfl
@[simp] theorem applyReset_density (s : State) : (applyReset s).density = State.reset.density := rfl
@[simp] theorem applyReset_feedback (s : State) : (applyReset s).feedback = State.reset.feedback := rfl
@[simp] theorem applyReset_delay (s : State) : (applyReset s).delay = State.reset.delay := rfl
@[simp] theorem applyReset_status (s : State) : (applyReset s).status = State.reset.status := rfl
@[simp] theorem applyReset_snapshot (s : State) : (applyReset s).snapshot = State.reset.snapshot := rfl
@[simp] theorem applyReset_rng (s : State) : (applyReset s).rng = s.rng := rfl
@[simp] theorem applyReset_fbMax (s : State) : (applyReset s).fbMax = s.fbMax := rfl
@[simp] theorem applyReset_inReset (s : State) : (applyReset s).inReset = s.inReset := rfl
@[simp] theorem applyReset_ctrlIn (s : State) : (applyReset s).ctrlIn = s.ctrlIn := rfl
@[simp] theorem applyReset_periodIn (s : State) : (applyReset s).periodIn = s.periodIn := rfl
@[simp] theorem applyReset_turns (s : State) : (applyReset s).turns = s.turns := rfl
@[simp] theorem applyReset_engineIn (s : State) : (applyReset s).engineIn = s.engineIn := rfl
@[simp] theorem applyReset_periods (s : State) : (applyReset s).periods = s.periods := rfl
@[simp] theorem applyReset_events (s : State) : (applyReset s).events = s.events := rfl

/-! ### withWaiting -/

@[simp] theorem State.withWaiting_mix (s : State) (p : Port) (ws : List Word) : (s.withWaiting p ws).mix = s.mix := by
  cases p <;> rfl
@[simp] theorem State.withWaiting_noise (s : State) (p : Port) (ws : List Word) : (s.withWaiting p ws).noise = s.noise := by
  cases p <;> rfl
@[simp] theorem State.withWaiting_density (s : State) (p : Port) (ws : List Word) : (s.withWaiting p ws).density = s.density := by
  cases p <;> rfl
@[simp] theorem State.withWaiting_feedback (s : State) (p : Port) (ws : List Word) : (s.withWaiting p ws).feedback = s.feedback := by
  cases p <;> rfl
@[simp] theorem State.withWaiting_delay (s : State) (p : Port) (ws : List Word) : (s.withWaiting p ws).delay = s.delay := by
  cases p <;> rfl
@[simp] theorem State.withWaiting_status (s : State) (p : Port) (ws : List Word) : (s.withWaiting p ws).status = s.status := by
  cases p <;> rfl
@[simp] theorem State.withWaiting_snapshot (s : State) (p : Port) (ws : List Word) : (s.withWaiting p ws).snapshot = s.snapshot := by
  cases p <;> rfl
@[simp] theorem State.withWaiting_rng (s : State) (p : Port) (ws : List Word) : (s.withWaiting p ws).rng = s.rng := by
  cases p <;> rfl
@[simp] theorem State.withWaiting_fbMax (s : State) (p : Port) (ws : List Word) : (s.withWaiting p ws).fbMax = s.fbMax := by
  cases p <;> rfl
@[simp] theorem State.withWaiting_inReset (s : State) (p : Port) (ws : List Word) : (s.withWaiting p ws).inReset = s.inReset := by
  cases p <;> rfl
@[simp] theorem State.withWaiting_turns (s : State) (p : Port) (ws : List Word) : (s.withWaiting p ws).turns = s.turns := by
  cases p <;> rfl
@[simp] theorem State.withWaiting_engineIn (s : State) (p : Port) (ws : List Word) : (s.withWaiting p ws).engineIn = s.engineIn := by
  cases p <;> rfl
@[simp] theorem State.withWaiting_periods (s : State) (p : Port) (ws : List Word) : (s.withWaiting p ws).periods = s.periods := by
  cases p <;> rfl
@[simp] theorem State.withWaiting_events (s : State) (p : Port) (ws : List Word) : (s.withWaiting p ws).events = s.events := by
  cases p <;> rfl
@[simp] theorem State.withWaiting_ctrl_ctrlIn (s : State) (ws : List Word) : (s.withWaiting .ctrl ws).ctrlIn = ws := rfl
@[simp] theorem State.withWaiting_ctrl_periodIn (s : State) (ws : List Word) : (s.withWaiting .ctrl ws).periodIn = s.periodIn := rfl
@[simp] theorem State.withWaiting_period_periodIn (s : State) (ws : List Word) : (s.withWaiting .period ws).periodIn = ws := rfl
@[simp] theorem State.withWaiting_period_ctrlIn (s : State) (ws : List Word) : (s.withWaiting .period ws).ctrlIn = s.ctrlIn := rfl
@[simp] theorem State.waiting_ctrl (s : State) : s.waiting .ctrl = s.ctrlIn := rfl
@[simp] theorem State.waiting_period (s : State) : s.waiting .period = s.periodIn := rfl

end Sys2Proof.Machine
end

