-- ==== Sys2Proof/Laws/Ops.lean ====
section
/-! SUPPORT. What each shared operation does, said once. -/

namespace Sys2Proof.Machine

/-- The illegal-command outcome writes STATUS alone (R191). -/
theorem raiseIllegal_eq (c : Cause) (s : State) :
    raiseIllegal c s = { s with status := recordIllegal s.status c } := rfl

/-- A response is appended to the history and nothing else changes (R104). -/
theorem respond_eq (v : Half) (s : State) : respond v s = { s with events := s.events ++ [.resp v] } := rfl

/-- What each register reads as, as a number (R76, R104). -/
theorem readReg_toNat (s : State) :
    (readReg .mix s).toNat = s.mix.toNat ∧ (readReg .noise s).toNat = s.noise.toNat ∧
      (readReg .density s).toNat = s.density.toNat ∧ (readReg .feedback s).toNat = s.feedback.toNat ∧
      (readReg .delay s).toNat = s.delay.toNat ∧ readReg .status s = s.status ∧ readReg .id s = 0xD1C7#16 := by
  have h1 := s.noise.isLt
  have h2 := s.density.isLt
  have h3 := s.feedback.isLt
  have h4 := s.delay.isLt
  refine ⟨rfl, ?_, ?_, ?_, ?_, rfl, rfl⟩ <;> simp only [readReg, pad16, BitVec.toNat_setWidth] <;> omega

theorem clampMix_toNat (v : Nat) : (clampMix v).toNat = min v 0x8000 := by
  simp only [clampMix, Config.mixOne, BitVec.toNat_ofNat]; omega

theorem clampNoise_toNat (v : Nat) : (clampNoise v).toNat = min v 60 := by
  simp only [clampNoise, Config.noiseMax, BitVec.toNat_ofNat]; omega

theorem clampDensity_toNat (v : Nat) : (clampDensity v).toNat = min v 100 := by
  simp only [clampDensity, Config.densityMax, BitVec.toNat_ofNat]; omega

theorem clampFeedback_toNat (m : BitVec 15) (v : Nat) : (clampFeedback m v).toNat = min v m.toNat := by
  have h := m.isLt
  simp only [clampFeedback, BitVec.toNat_ofNat]; omega

theorem clampDelay_toNat (v : Nat) : (clampDelay v).toNat = min (max v 1) 300 := by
  simp only [clampDelay, clampNat, Config.delayMin, Config.delayMax, BitVec.toNat_ofNat]; omega

/-- A listed input is the one the next PROC is presented with. -/
theorem periodInput_cons (s : State) (inp : PeriodInput) (rest : List PeriodInput) (h : s.engineIn = inp :: rest) :
    periodInput s = inp := by
  simp [periodInput, h]

/-- The registers are no input of the engine. -/
theorem periodInput_congr (s t : State) (h1 : t.engineIn = s.engineIn) (h2 : t.periods = s.periods) (h3 : t.rng = s.rng) :
    periodInput t = periodInput s := by
  simp only [periodInput, h1, h2, h3]

theorem waiting_withWaiting (s : State) (p q : Port) (ws : List Word) :
    (s.withWaiting p ws).waiting q = if q = p then ws else s.waiting q := by
  cases p <;> cases q <;> rfl

/-- Presenting a word makes it the next one its port applies. -/
theorem present_spec (p : Port) (w : Word) (s : State) :
    (present p w s).turns = .command p :: s.turns ∧ (present p w s).waiting p = w :: s.waiting p ∧
      (present p w s).inReset = false := by
  cases p <;> exact ⟨rfl, rfl, rfl⟩

end Sys2Proof.Machine
end

