-- ==== Sys2Proof/Laws/Apply.lean ====
section
/-! SUPPORT. What applying a word, serving a port and a whole step can do: every case, with its guards. -/

namespace Sys2Proof.Machine

/-- A word either runs the command it decodes to or is recorded as illegal. -/
theorem applyWord_cases (p : Port) (w : Word) (s : State) :
    (∃ i, decode p w = .legal i ∧ applyWord p w s = exec i s) ∨
      (∃ c, decode p w = .illegal c ∧ applyWord p w s = .next (raiseIllegal c s)) := by
  cases h : decode p w with
  | legal i => exact .inl ⟨i, rfl, by simp [applyWord, h]⟩
  | illegal c => exact .inr ⟨c, rfl, by simp [applyWord, h]⟩

/-- A port's turn passes, drops a word during reset, or applies the oldest word. -/
theorem servePort_cases (p : Port) (s : State) :
    (s.waiting p = [] ∧ servePort p s = .next s) ∨
      (∃ w ws, s.waiting p = w :: ws ∧ s.inReset = true ∧ servePort p s = .next (s.withWaiting p ws)) ∨
      (∃ w ws, s.waiting p = w :: ws ∧ s.inReset = false ∧ servePort p s = applyWord p w (s.withWaiting p ws)) := by
  cases h : s.waiting p with
  | nil => exact .inl ⟨rfl, by simp [servePort, h]⟩
  | cons w ws =>
    cases h' : s.inReset with
    | true => exact .inr (.inl ⟨w, ws, rfl, rfl, by simp [servePort, h, h']⟩)
    | false => exact .inr (.inr ⟨w, ws, rfl, rfl, by simp [servePort, h, h']⟩)

/-- A step idles, serves a port, or follows an edge of the reset input. -/
theorem step_cases (s : State) :
    (s.turns = [] ∧ step s = .next s) ∨
      (∃ p ts, s.turns = .command p :: ts ∧ step s = servePort p (s.withTurns ts)) ∨
      (∃ ts, s.turns = .assertReset :: ts ∧ step s = .next ((applyReset (s.withTurns ts)).withReset true)) ∨
      (∃ ts, s.turns = .releaseReset :: ts ∧ step s = .next ((s.withTurns ts).withReset false)) := by
  cases h : s.turns with
  | nil => exact .inl ⟨rfl, by simp [step, advance, h]⟩
  | cons t ts =>
    cases t with
    | command p => exact .inr (.inl ⟨p, ts, rfl, by simp [step, advance, h, serveTurn]⟩)
    | assertReset => exact .inr (.inr (.inl ⟨ts, rfl, by simp [step, advance, h, serveTurn]⟩))
    | releaseReset => exact .inr (.inr (.inr ⟨ts, rfl, by simp [step, advance, h, serveTurn]⟩))

/-- No step: the run stands where it is. -/
theorem core_run_zero (s : State) : core.run 0 s = .next s := rfl

/-- A run of a machine is one step and the rest of the run. -/
theorem run_succ_of_next (M : Host.Core) (n : Nat) (s t : M.State) (h : M.step s = .next t) :
    M.run (n + 1) s = M.run n t := by
  simp only [Host.Core.run, h]

/-- A run of the model is one step and the rest of the run. -/
theorem core_run_succ (n : Nat) (s t : State) (h : step s = .next t) : core.run (n + 1) s = core.run n t :=
  run_succ_of_next core n s t h

end Sys2Proof.Machine
end

