-- ==== Sys2Proof/Laws/Decode.lean ====
section
/-! SUPPORT. The fields of a packed word, and a word from its fields. -/

namespace Sys2Proof

@[simp] theorem opField_packWord (op reg : BitVec 4) (imm : Half) : opField (packWord op reg imm) = op := by
  ext i hi
  simp only [opField, packWord, BitVec.getElem_extractLsb', BitVec.getLsbD_append]
  have h1 : ¬ 28 + i < 16 := by omega
  have h2 : ¬ 28 + i - 16 < 8 := by omega
  have h3 : ¬ 28 + i - 16 - 8 < 4 := by omega
  have h4 : 28 + i - 16 - 8 - 4 = i := by omega
  simp [h1, h2, h3, h4, hi]

@[simp] theorem regField_packWord (op reg : BitVec 4) (imm : Half) : regField (packWord op reg imm) = reg := by
  ext i hi
  simp only [regField, packWord, BitVec.getElem_extractLsb', BitVec.getLsbD_append]
  have h1 : ¬ 24 + i < 16 := by omega
  have h2 : ¬ 24 + i - 16 < 8 := by omega
  have h4 : 24 + i - 16 - 8 = i := by omega
  simp [h1, h2, h4, hi]

@[simp] theorem rsvField_packWord (op reg : BitVec 4) (imm : Half) : rsvField (packWord op reg imm) = 0#8 := by
  ext i hi
  simp only [rsvField, packWord, BitVec.getElem_extractLsb', BitVec.getLsbD_append]
  have h1 : ¬ 16 + i < 16 := by omega
  have h2 : 16 + i - 16 < 8 := by omega
  simp only [h1, h2, if_true, if_false, BitVec.getLsbD_zero, BitVec.getElem_zero]

@[simp] theorem immField_packWord (op reg : BitVec 4) (imm : Half) : immField (packWord op reg imm) = imm := by
  ext i hi
  simp only [immField, packWord, BitVec.getElem_extractLsb', BitVec.getLsbD_append]
  simp [hi]

/-- A word is its four fields (R70). -/
theorem word_of_fields (w : Word) : w = opField w ++ regField w ++ rsvField w ++ immField w := by
  apply BitVec.eq_of_getLsbD_eq
  intro i hi
  simp only [opField, regField, rsvField, immField, BitVec.getLsbD_append, BitVec.getLsbD_extractLsb']
  by_cases h1 : i < 16
  · simp [h1]
  · by_cases h2 : i - 16 < 8
    · have h : 16 + (i - 16) = i := by omega
      simp [h1, h2, h]
    · by_cases h3 : i - 16 - 8 < 4
      · have h : 24 + (i - 16 - 8) = i := by omega
        simp [h1, h2, h3, h]
      · have h : 28 + (i - 16 - 8 - 4) = i := by omega
        have h4 : i - 16 - 8 - 4 < 4 := by omega
        simp [h1, h2, h3, h, h4]

/-- A word whose RSV is zero is packed from its OP, REG and IMM fields. -/
theorem packWord_of_fields (w : Word) (h : rsvField w = 0#8) : packWord (opField w) (regField w) (immField w) = w := by
  conv_rhs => rw [word_of_fields w, h]
  rfl

/-- The fields as numbers: the word's quotients and remainders. -/
theorem fields_toNat (w : Word) :
    (opField w).toNat = w.toNat / 2 ^ 28 ∧ (regField w).toNat = w.toNat / 2 ^ 24 % 16 ∧
      (rsvField w).toNat = w.toNat / 2 ^ 16 % 256 ∧ (immField w).toNat = w.toNat % 65536 := by
  have hw := w.isLt
  simp only [opField, regField, rsvField, immField, BitVec.extractLsb'_toNat, Nat.shiftRight_eq_div_pow]
  norm_num
  omega

/-- An OP field selects an operation exactly when it is below 4 (R72). -/
theorem Op.ofField_eq_none (v : BitVec 4) : Op.ofField v = none ↔ 4 ≤ v.toNat := by
  revert v; decide

/-- A REG field selects a register exactly when it is below 7 (R76). -/
theorem Reg.ofField_eq_none (v : BitVec 4) : Reg.ofField v = none ↔ 7 ≤ v.toNat := by
  revert v; decide

/-- The OP field of an operation (R72). -/
theorem Op.ofField_eq_some (v : BitVec 4) (o : Op) (h : Op.ofField v = some o) : v = opIndex o := by
  cases o <;> revert v <;> decide

/-- The REG field of a register (R76). -/
theorem Reg.ofField_eq_some (v : BitVec 4) (r : Reg) (h : Reg.ofField v = some r) : v = regIndex r := by
  cases r <;> revert v <;> decide

/-- Decoding a word packed from OP, REG and IMM: the checks on those three fields alone. -/
theorem decode_packWord (p : Port) (op reg : BitVec 4) (imm : Half) :
    decode p (packWord op reg imm) =
      match Op.ofField op with
      | none => .illegal .reservedOp
      | some o =>
        if accepts p o = false then .illegal .wrongPort
        else if (o = .nop ∨ o = .proc) ∧ reg ≠ 0#4 then .illegal .reservedField
        else if o ≠ .wrp ∧ imm ≠ 0#16 then .illegal .reservedField
        else
          match o with
          | .nop => .legal .nop
          | .wrp => decodeWrp imm (Reg.ofField reg)
          | .rdp => decodeRdp (Reg.ofField reg)
          | .proc => .legal .proc := by
  unfold decode
  rw [opField_packWord, regField_packWord, rsvField_packWord, immField_packWord]
  rfl

/-- A legal word has RSV zero (R74). -/
theorem rsvField_of_legal (p : Port) (w : Word) (i : Instr) (h : decode p w = .legal i) : rsvField w = 0#8 := by
  by_contra hr
  unfold decode at h
  split at h
  · cases h
  · split at h
    · cases h
    · simp at h

end Sys2Proof
end

