-- ==== Sys2Proof/Laws/PerInstr.lean ====
section
/-! SUPPORT. Per-instruction facts about syntax: the fields of every command's word. -/

namespace Sys2Proof.Laws.WordFields

/-- RSV of the command's word is 0, the word is packed from its own fields, OP is below 4 and names an operation that the
command's own ports accept (R70 to R74). -/
def Statement (i : Instr) : Prop :=
  rsvField (encode i) = 0#8 ∧ encode i = packWord (opField (encode i)) (regField (encode i)) (immField (encode i)) ∧
    ∃ op, Op.ofField (opField (encode i)) = some op ∧ ∀ p, accepts p op = wellFormed p i

theorem nop : Statement .nop := ⟨by simp [encode], by simp [encode], .nop, by decide, by intro p; cases p <;> rfl⟩
theorem wrpMix (imm : Half) : Statement (.wrpMix imm) :=
  ⟨by simp [encode], by simp [encode], .wrp, by simp [encode]; decide, by intro p; cases p <;> rfl⟩
theorem wrpNoise (imm : Half) : Statement (.wrpNoise imm) :=
  ⟨by simp [encode], by simp [encode], .wrp, by simp [encode]; decide, by intro p; cases p <;> rfl⟩
theorem wrpDensity (imm : Half) : Statement (.wrpDensity imm) :=
  ⟨by simp [encode], by simp [encode], .wrp, by simp [encode]; decide, by intro p; cases p <;> rfl⟩
theorem wrpFeedback (imm : Half) : Statement (.wrpFeedback imm) :=
  ⟨by simp [encode], by simp [encode], .wrp, by simp [encode]; decide, by intro p; cases p <;> rfl⟩
theorem wrpDelay (imm : Half) : Statement (.wrpDelay imm) :=
  ⟨by simp [encode], by simp [encode], .wrp, by simp [encode]; decide, by intro p; cases p <;> rfl⟩
theorem rdpMix : Statement .rdpMix := ⟨by simp [encode], by simp [encode], .rdp, by decide, by intro p; cases p <;> rfl⟩
theorem rdpNoise : Statement .rdpNoise := ⟨by simp [encode], by simp [encode], .rdp, by decide, by intro p; cases p <;> rfl⟩
theorem rdpDensity : Statement .rdpDensity := ⟨by simp [encode], by simp [encode], .rdp, by decide, by intro p; cases p <;> rfl⟩
theorem rdpFeedback : Statement .rdpFeedback := ⟨by simp [encode], by simp [encode], .rdp, by decide, by intro p; cases p <;> rfl⟩
theorem rdpDelay : Statement .rdpDelay := ⟨by simp [encode], by simp [encode], .rdp, by decide, by intro p; cases p <;> rfl⟩
theorem rdpStatus : Statement .rdpStatus := ⟨by simp [encode], by simp [encode], .rdp, by decide, by intro p; cases p <;> rfl⟩
theorem rdpId : Statement .rdpId := ⟨by simp [encode], by simp [encode], .rdp, by decide, by intro p; cases p <;> rfl⟩
theorem proc : Statement .proc := ⟨by simp [encode], by simp [encode], .proc, by decide, by intro p; cases p <;> rfl⟩

end Sys2Proof.Laws.WordFields
end

