-- ==== Sys2Proof/Laws/Proc.lean ====
section
/-! SUPPORT. What one channel of a PROC does, and what one lane computes. -/

namespace Sys2Proof.Machine

/-- A channel with both sides ready records its five kinds of event in order and nothing else changes (R156). -/
theorem procChannel_processed (ch : Channel) (inp : ChannelInput) (s : State) (clean dirty : Block)
    (h1 : inp.clean = some clean) (h2 : inp.dirty = some dirty) :
    procChannel ch inp s =
      ({ s with events := s.events ++ [.acq .clean ch, .acq .dirty ch, .emit ch (mixBlock s.snapshot clean dirty inp.draws),
          .rel .clean ch, .rel .dirty ch] }, true) := by
  simp [procChannel, h1, h2, acquire, emit, release, State.record]

/-- A channel with a side missing is left alone (R155). -/
theorem procChannel_skipped (ch : Channel) (inp : ChannelInput) (s : State) (h : inp.clean = none ∨ inp.dirty = none) :
    procChannel ch inp s = (s, false) := by
  obtain h | h := h <;> simp only [procChannel, h]
  cases inp.clean <;> rfl

/-- One of the two happens. -/
theorem procChannel_cases (ch : Channel) (inp : ChannelInput) (s : State) :
    (∃ clean dirty, inp.clean = some clean ∧ inp.dirty = some dirty ∧ procChannel ch inp s =
      ({ s with events := s.events ++ [.acq .clean ch, .acq .dirty ch, .emit ch (mixBlock s.snapshot clean dirty inp.draws),
          .rel .clean ch, .rel .dirty ch] }, true)) ∨
      ((inp.clean = none ∨ inp.dirty = none) ∧ procChannel ch inp s = (s, false)) := by
  cases h1 : inp.clean with
  | none => exact .inr ⟨.inl rfl, procChannel_skipped ch inp s (.inl h1)⟩
  | some c =>
    cases h2 : inp.dirty with
    | none => exact .inr ⟨.inr rfl, procChannel_skipped ch inp s (.inr h2)⟩
    | some d => exact .inl ⟨c, d, rfl, rfl, procChannel_processed ch inp s c d h1 h2⟩

/-- The events one channel of a PROC records (R155, R156). -/
def channelEvents (snap : Snapshot) (ch : Channel) (inp : ChannelInput) : List Event :=
  match inp.clean, inp.dirty with
  | some clean, some dirty =>
    [.acq .clean ch, .acq .dirty ch, .emit ch (mixBlock snap clean dirty inp.draws), .rel .clean ch, .rel .dirty ch]
  | _, _ => []

/-- Whether a PROC processes a channel (R154). -/
def channelReady (inp : ChannelInput) : Bool := inp.clean.isSome && inp.dirty.isSome

/-- One channel of a PROC in one equation. -/
theorem procChannel_eq (ch : Channel) (inp : ChannelInput) (s : State) :
    procChannel ch inp s = ({ s with events := s.events ++ channelEvents s.snapshot ch inp }, channelReady inp) := by
  obtain ⟨clean, dirty, h1, h2, h⟩ | ⟨h1, h⟩ := procChannel_cases ch inp s
  · simp [h, channelEvents, channelReady, h1, h2]
  · have h2 : channelEvents s.snapshot ch inp = [] ∧ channelReady inp = false := by
      cases hc : inp.clean <;> cases hd : inp.dirty <;> simp_all [channelEvents, channelReady]
    simp [h, h2]

/-- The whole PROC in one equation, over the two channels' events. -/
theorem procState_eq (s : State) :
    procState s =
      { s with
        engineIn := s.engineIn.tail
        periods := s.periods + 1
        rng := s.rng + 1
        snapshot := ⟨s.mix, s.noise, s.density⟩
        events := s.events ++ channelEvents ⟨s.mix, s.noise, s.density⟩ .left (periodInput s).left ++
          channelEvents ⟨s.mix, s.noise, s.density⟩ .right (periodInput s).right
        status := setProcessed s.status (channelReady (periodInput s).left) (channelReady (periodInput s).right) } := by
  simp only [procState, procChannel_eq, PeriodInput.channel]
  rfl

/-- A lane of the output block. -/
theorem mixBlock_getElem (snap : Snapshot) (clean dirty : Block) (draws : DrawBlock) (i : Nat) (h : i < Config.N) :
    (mixBlock snap clean dirty draws)[i] = outLane snap clean dirty draws ⟨i, h⟩ := by
  simp [mixBlock]

/-- A lane read back is MIXLANE of the clean lane and the degraded dirty lane (R157). -/
theorem sext16_outLane (snap : Snapshot) (clean dirty : Block) (draws : DrawBlock) (i : Fin Config.N) :
    sext16 (outLane snap clean dirty draws i) = mixLane (memRead clean i)
      (degrade (memRead dirty i) snap.noise.toNat snap.density.toNat draws[i].d.val draws[i].u.toInt) snap.mix.toNat := by
  have h := clipSample_mem (floorDiv (memRead clean i * (32768 - (snap.mix.toNat : Int)) +
    degrade (memRead dirty i) snap.noise.toNat snap.density.toNat draws[i].d.val draws[i].u.toInt * snap.mix.toNat) 32768)
  exact sext16_bits16 _ h.1 h.2

end Sys2Proof.Machine
end

