-- ==== Sys2Proof/Tests/Slice0.lean ====
section
/-! SUPPORT. Tests against the spec's own vectors (95_test_vectors.md) and words written out from its encodings, and for every
obligation that has hypotheses a witness that meets them. -/

namespace Sys2Proof.Tests

open Sys2Proof Sys2Proof.Machine

/-! ### Helpers -/

/-- The state an outcome lands in; `s` where there is none. -/
def landed (o : Host.Outcome State Fault Refusal) (s : State) : State :=
  match o with
  | .next t => t
  | .fault _ => s
  | .refused _ => s

/-- One command applied to a state. -/
def did (i : Instr) (s : State) : State := landed (exec i s) s

/-- One word applied at reset. -/
def got (p : Port) (w : Word) : State := landed (applyWord p w State.reset) State.reset

/-- A block whose lanes all hold one sample. -/
def flat (v : Int) : Block := Vector.replicate Config.N (bits16 v)

/-- Draws that are the same in every lane. -/
def same (d : Fin 100) (u : Int) : DrawBlock := Vector.replicate Config.N ⟨d, bits16 u⟩

/-- A channel with both sides ready. -/
def ready (clean dirty : Block) (draws : DrawBlock) : ChannelInput := ⟨some clean, some dirty, draws⟩

/-- A channel with no side ready. -/
def idle : ChannelInput := ⟨none, none, same 0 0⟩

/-- The machine at reset, with these inputs listed for the next PROC. -/
def given (l r : ChannelInput) : State := { State.reset with engineIn := [⟨l, r⟩] }

/-- One word waiting on a port, and that port's turn. -/
def waits (p : Port) (w : Word) (s : State) : State := (s.withWaiting p [w]).withTurns [.command p]

/-! ### WellFormed: each check refuses an ill-formed term -/

theorem test_wellFormed_refuses_wrp_on_period : wellFormed .period (.wrpMix 0#16) = false := by decide
theorem test_wellFormed_refuses_rdp_on_period : wellFormed .period .rdpStatus = false := by decide
theorem test_wellFormed_refuses_proc_on_ctrl : wellFormed .ctrl .proc = false := by decide
theorem test_wellFormed_takes_nop_on_both : wellFormed .ctrl .nop = true ∧ wellFormed .period .nop = true := by decide

/-! ### Words written out field by field, OP REG RSV IMM (R70 to R77) -/

theorem test_word_nop : decode .ctrl (0b0000#4 ++ 0b0000#4 ++ 0b00000000#8 ++ 0x0000#16) = .legal .nop ∧
    decode .period (0b0000#4 ++ 0b0000#4 ++ 0b00000000#8 ++ 0x0000#16) = .legal .nop := by decide
theorem test_word_wrpMix : decode .ctrl (0b0001#4 ++ 0b0000#4 ++ 0b00000000#8 ++ 0b1001000000000000#16) =
    .legal (.wrpMix 0x9000#16) := by decide
theorem test_word_wrpNoise : decode .ctrl (0b0001#4 ++ 0b0001#4 ++ 0b00000000#8 ++ 0b0000000000111101#16) =
    .legal (.wrpNoise 61#16) := by decide
theorem test_word_wrpDensity : decode .ctrl (0b0001#4 ++ 0b0010#4 ++ 0b00000000#8 ++ 0b0000000001100101#16) =
    .legal (.wrpDensity 101#16) := by decide
theorem test_word_wrpFeedback : decode .ctrl (0b0001#4 ++ 0b0011#4 ++ 0b00000000#8 ++ 0b0111111111111110#16) =
    .legal (.wrpFeedback 0x7FFE#16) := by decide
theorem test_word_wrpDelay : decode .ctrl (0b0001#4 ++ 0b0100#4 ++ 0b00000000#8 ++ 0b0000000100101101#16) =
    .legal (.wrpDelay 301#16) := by decide
theorem test_word_rdpMix : decode .ctrl (0b0010#4 ++ 0b0000#4 ++ 0b00000000#8 ++ 0x0000#16) = .legal .rdpMix := by decide
theorem test_word_rdpNoise : decode .ctrl (0b0010#4 ++ 0b0001#4 ++ 0b00000000#8 ++ 0x0000#16) = .legal .rdpNoise := by decide
theorem test_word_rdpDensity : decode .ctrl (0b0010#4 ++ 0b0010#4 ++ 0b00000000#8 ++ 0x0000#16) = .legal .rdpDensity := by
  decide
theorem test_word_rdpFeedback : decode .ctrl (0b0010#4 ++ 0b0011#4 ++ 0b00000000#8 ++ 0x0000#16) = .legal .rdpFeedback := by
  decide
theorem test_word_rdpDelay : decode .ctrl (0b0010#4 ++ 0b0100#4 ++ 0b00000000#8 ++ 0x0000#16) = .legal .rdpDelay := by decide
theorem test_word_rdpStatus : decode .ctrl (0b0010#4 ++ 0b0101#4 ++ 0b00000000#8 ++ 0x0000#16) = .legal .rdpStatus := by decide
theorem test_word_rdpId : decode .ctrl (0b0010#4 ++ 0b0110#4 ++ 0b00000000#8 ++ 0x0000#16) = .legal .rdpId := by decide
theorem test_word_proc : decode .period (0b0011#4 ++ 0b0000#4 ++ 0b00000000#8 ++ 0x0000#16) = .legal .proc := by decide

/-- Vectors X7 to X23: STATUS after one illegal word at reset. -/
theorem test_illegal_words :
    (got .ctrl 0x30000000#32).status = 0x0024#16 ∧ (got .period 0x10000000#32).status = 0x0024#16 ∧
    (got .period 0x25000000#32).status = 0x0024#16 ∧ (got .period 0x47000000#32).status = 0x0014#16 ∧
    (got .ctrl 0xF0000000#32).status = 0x0014#16 ∧ (got .period 0x17000001#32).status = 0x0024#16 ∧
    (got .ctrl 0x15010000#32).status = 0x0034#16 ∧ (got .ctrl 0x10800000#32).status = 0x0034#16 ∧
    (got .ctrl 0x00000001#32).status = 0x0034#16 ∧ (got .ctrl 0x20000001#32).status = 0x0034#16 ∧
    (got .period 0x31000000#32).status = 0x0034#16 ∧ (got .period 0x30000001#32).status = 0x0034#16 ∧
    (got .ctrl 0x17000000#32).status = 0x0044#16 ∧ (got .ctrl 0x27000000#32).status = 0x0044#16 ∧
    (got .ctrl 0x1F00ABCD#32).status = 0x0044#16 ∧ (got .ctrl 0x15000000#32).status = 0x0054#16 ∧
    (got .ctrl 0x16000001#32).status = 0x0054#16 := by decide

/-- Vector X25: the first cause stays. -/
theorem test_first_cause_stays : recordIllegal 0x0054#16 .reservedOp = 0x0054#16 := by decide

/-- Vector X27: PROC writes PL and PR and keeps ILL and ILLC. -/
theorem test_proc_keeps_cause : setProcessed 0x0054#16 true false = 0x0055#16 := by decide

/-! ### WRP and RDP, vectors W1 to W21 and R-1 to R-7 -/

theorem test_wrpMix : (did (.wrpMix 0x7FFF#16) State.reset).mix = 0x7FFF#16 ∧
    (did (.wrpMix 0x8000#16) State.reset).mix = 0x8000#16 ∧ (did (.wrpMix 0x9000#16) State.reset).mix = 0x8000#16 ∧
    (did (.wrpMix 0xFFFF#16) State.reset).mix = 0x8000#16 := by decide
theorem test_wrpNoise : (did (.wrpNoise 0#16) State.reset).noise = 0#6 ∧ (did (.wrpNoise 60#16) State.reset).noise = 60#6 ∧
    (did (.wrpNoise 61#16) State.reset).noise = 60#6 ∧ (did (.wrpNoise 0xFFFF#16) State.reset).noise = 60#6 := by decide
theorem test_wrpDensity : (did (.wrpDensity 99#16) State.reset).density = 99#7 ∧
    (did (.wrpDensity 100#16) State.reset).density = 100#7 ∧ (did (.wrpDensity 101#16) State.reset).density = 100#7 := by decide
theorem test_wrpFeedback : (did (.wrpFeedback 0x7FFE#16) State.reset).fbGain = 0x7FFE#15 ∧
    (did (.wrpFeedback 0x8000#16) State.reset).fbGain = 0x7FFF#15 ∧
    (did (.wrpFeedback 0x7334#16) { State.reset with fbMax := 0x7333#15 }).fbGain = 0x7333#15 := by decide
theorem test_wrpDelay : (did (.wrpDelay 0#16) State.reset).delayMs = 1#9 ∧ (did (.wrpDelay 300#16) State.reset).delayMs = 300#9 ∧
    (did (.wrpDelay 301#16) State.reset).delayMs = 300#9 := by decide
theorem test_rdpMix : (did .rdpMix State.reset).events = [.resp 0x0000#16] := by decide
theorem test_rdpNoise : (did .rdpNoise State.reset).events = [.resp 0x0014#16] := by decide
theorem test_rdpDensity : (did .rdpDensity State.reset).events = [.resp 0x0005#16] := by decide
theorem test_rdpFeedback : (did .rdpFeedback State.reset).events = [.resp 0x0000#16] := by decide
theorem test_rdpDelay : (did .rdpDelay State.reset).events = [.resp 0x0001#16] := by decide
theorem test_rdpStatus : (did .rdpStatus { State.reset with status := 0x0055#16 }).events = [.resp 0x0055#16] := by decide
theorem test_rdpId : (did .rdpId State.reset).events = [.resp 0xD1C7#16] := by decide
theorem test_nop : did .nop State.reset = State.reset := by decide

/-! ### DEGRADE and MIXLANE, vectors D1 to D27 and M1 to M14 -/

theorem test_degrade_not_fired : degrade 1234 20 5 5 0 = 1234 ∧ degrade 1234 20 0 0 32767 = 1234 ∧
    degrade 5000 30 50 50 (-16384) = 5000 ∧ degrade (-32768) 20 5 99 (-32768) = -32768 := by decide
theorem test_degrade_crush : degrade 1234 60 100 99 0 = 0 ∧ degrade 16384 20 100 0 0 = 16384 ∧ degrade (-1) 20 100 0 0 = -512 ∧
    degrade (-1) 0 100 0 0 = -128 ∧ degrade (-1) 60 100 0 0 = -8192 ∧ degrade 32767 0 100 0 0 = 32640 ∧
    degrade 8191 60 100 0 0 = 0 ∧ degrade (-8193) 60 100 0 0 = -16384 := by decide
theorem test_degrade_noise : degrade 16383 20 100 42 32767 = 22425 ∧ degrade (-32768) 60 100 0 32767 = -13108 ∧
    degrade (-300) 10 100 0 (-32768) = -3789 ∧ degrade 3276 20 100 0 1020 = 3276 ∧ degrade 100 0 100 0 32767 = 0 ∧
    degrade 5000 30 50 49 (-16384) = -820 ∧ degrade (-5000) 30 50 0 16384 = -205 ∧
    degrade (-12345) 45 100 0 (-1) = -14337 ∧ degrade 0 1 100 0 (-1) = -1 ∧ degrade 0 1 100 0 1 = 0 := by decide
theorem test_degrade_clip : degrade (-32768) 60 100 0 (-32768) = -32768 ∧ degrade 32767 60 100 0 32767 = 32767 ∧
    degrade 32767 9 100 0 32767 = 32767 ∧ degrade (-24577) 59 100 0 (-32768) = -32768 := by decide
theorem test_mixLane : mixLane 1000 (-1000) 0 = 1000 ∧ mixLane 1000 (-1000) 0x8000 = -1000 ∧ mixLane 1000 (-1000) 0x4000 = 0 ∧
    mixLane 1000 (-1000) 0x2000 = 500 ∧ mixLane (-1) 0 1 = -1 ∧ mixLane 1 0 1 = 0 ∧ mixLane (-32768) 32767 0x4000 = -1 ∧
    mixLane 32767 (-32768) 0x4000 = -1 ∧ mixLane 32767 32767 0x1234 = 32767 ∧ mixLane 12345 (-54) 0x6000 = 3045 ∧
    mixLane 100 200 1 = 100 ∧ mixLane 100 200 0x7FFF = 199 := by decide

/-! ### PROC -/

/-- Vector E4: channel 0 lacks its dirty side and is not touched; channel 1 is processed, with the parameters of reset. -/
theorem test_proc_skips_a_channel :
    (did .proc (given ⟨some (flat 9), none, same 0 0⟩ (ready (flat 7) (flat 5) (same 0 0)))).events =
      [.acq .clean .right, .acq .dirty .right, .emit .right (mixBlock ⟨0#16, 20#6, 5#7⟩ (flat 7) (flat 5) (same 0 0)),
        .rel .clean .right, .rel .dirty .right] ∧
    (did .proc (given ⟨some (flat 9), none, same 0 0⟩ (ready (flat 7) (flat 5) (same 0 0)))).status = 0x0002#16 :=
  ⟨rfl, rfl⟩

/-- Programs P3 (lanes 0, 17 and 127) and P5 (order A, any lane) of 95_test_vectors.md, lane by lane. -/
theorem test_proc_lanes :
    (outLane ⟨0x4000#16, 30#6, 50#7⟩ (flat 1000) (flat (-6400)) (same 0 (-32768)) 0).toInt = -8000 ∧
    (outLane ⟨0x4000#16, 30#6, 50#7⟩ (flat 1000) (flat (-4700)) (same 51 (-23979)) 17).toInt = -1850 ∧
    (outLane ⟨0x4000#16, 30#6, 50#7⟩ (flat 1000) (flat 6300) (same 81 (-32645)) 127).toInt = 3650 ∧
    (outLane ⟨0x8000#16, 60#6, 5#7⟩ (flat 0) (flat 20000) (same 0 0) 64).toInt = 16384 := by decide +kernel

/-! ### Assembler (R82, R83) -/

theorem test_assembler_line : assembleLine "C: wrp mix, 0x4000 ; half".toList = some [(.ctrl, 0x10004000#32)] ∧
    assembleLine "P: PROC".toList = some [(.period, 0x30000000#32)] ∧ assembleLine "; only".toList = some [] := by
  decide +kernel
theorem test_assembler_refuses : assembleLine "C: wrp mix, 65536".toList = none ∧
    assembleLine "C: wrp status, 0".toList = none ∧ assembleLine "X: nop".toList = none := by decide +kernel

/-! ### The table word of the host -/

theorem test_table_word : decodeTableWord 32 0x14000096 = some (.wrpDelay 150#16) ∧ decodeTableWord 32 0x30000000 = some .proc ∧
    decodeTableWord 32 0x47000000 = none := by decide

/-! ### Witnesses: the hypotheses of each obligation that has some are met, together -/

theorem witness_LegalWordIsTheEncodingOfItsCommand : decode .ctrl 0x1000FFFF#32 = .legal (.wrpMix 0xFFFF#16) ∧
    decode .period 0x30000000#32 = .legal .proc := by decide

theorem witness_WordIsLegalExactlyWhenATableRowMatches :
    (decode .ctrl 0x14000000#32 = .legal (.wrpDelay 0#16)) ∧
    (∃ r ∈ opcodeTable, Port.ctrl ∈ r.ports ∧ 0x14000000#32 &&& r.mask = r.pattern) := by decide

/-- One word for each branch, at the branch's boundary values of OP and REG. -/
theorem witness_DecodeChecksInOrder :
    ((0x4F010001#32 : Word).toNat = 4 * 2 ^ 28 + 15 * 2 ^ 24 + 1 * 2 ^ 16 + 1 ∧ decode .ctrl 0x4F010001#32 = .illegal .reservedOp) ∧
    ((0x1F01FFFF#32 : Word).toNat = 1 * 2 ^ 28 + 15 * 2 ^ 24 + 1 * 2 ^ 16 + 65535 ∧
      decode .period 0x1F01FFFF#32 = .illegal .wrongPort) ∧
    ((0x3F010001#32 : Word).toNat = 3 * 2 ^ 28 + 15 * 2 ^ 24 + 1 * 2 ^ 16 + 1 ∧ decode .ctrl 0x3F010001#32 = .illegal .wrongPort) ∧
    ((0x15010000#32 : Word).toNat = 1 * 2 ^ 28 + 5 * 2 ^ 24 + 1 * 2 ^ 16 + 0 ∧ decode .ctrl 0x15010000#32 = .illegal .reservedField) ∧
    ((0x31000000#32 : Word).toNat = 3 * 2 ^ 28 + 1 * 2 ^ 24 + 0 * 2 ^ 16 + 0 ∧
      decode .period 0x31000000#32 = .illegal .reservedField) ∧
    ((0x27000001#32 : Word).toNat = 2 * 2 ^ 28 + 7 * 2 ^ 24 + 0 * 2 ^ 16 + 1 ∧ decode .ctrl 0x27000001#32 = .illegal .reservedField) ∧
    ((0x17000000#32 : Word).toNat = 1 * 2 ^ 28 + 7 * 2 ^ 24 + 0 * 2 ^ 16 + 0 ∧ decode .ctrl 0x17000000#32 = .illegal .reservedReg) ∧
    ((0x16000001#32 : Word).toNat = 1 * 2 ^ 28 + 6 * 2 ^ 24 + 0 * 2 ^ 16 + 1 ∧ decode .ctrl 0x16000001#32 = .illegal .readOnly) ∧
    ((0x1400FFFF#32 : Word).toNat = 1 * 2 ^ 28 + 4 * 2 ^ 24 + 0 * 2 ^ 16 + 65535 ∧
      decode .ctrl 0x1400FFFF#32 = .legal (.wrpDelay 0xFFFF#16)) := by decide

theorem witness_StepRunsTheDecodedCommand :
    (waits .ctrl 0x14000096#32 State.reset).turns = .command .ctrl :: [] ∧
    (waits .ctrl 0x14000096#32 State.reset).waiting .ctrl = 0x14000096#32 :: [] ∧
    (waits .ctrl 0x14000096#32 State.reset).inReset = false ∧
    decode .ctrl 0x14000096#32 = .legal (.wrpDelay 150#16) := by decide

/-- Also for the reserved words of the RDP rows. -/
theorem witness_NopChangesNothing : (1#28 : BitVec 28) ≠ 0#28 ∧ (0x8000000#28 : BitVec 28) ≠ 0#28 ∧ (1#24 : BitVec 24) ≠ 0#24 := by
  decide

theorem witness_WrpFeedbackStoresTheBoundedGain : 0x8000 ≤ (0x8000#16 : Half).toNat ∧ 0x8000 ≤ (0xFFFF#16 : Half).toNat := by
  decide

/-- Legal registers at the top and at the bottom of every range. -/
theorem witness_LegalParams :
    ({ State.reset with mix := 0x8000#16, noise := 60#6, density := 100#7, feedback := 0x7333#15, delay := 300#9,
                        fbMax := 0x7333#15 } : State).LegalParams ∧
    ({ State.reset with mix := 0#16, noise := 0#6, density := 0#7, feedback := 0#15, delay := 1#9, fbMax := 1#15 } : State).LegalParams := by
  decide

/-- Legal STATUS with ILL clear, and with ILL set at the first and the last cause. -/
theorem witness_LegalStatus : State.reset.LegalStatus ∧ State.reset.status &&& 0x0004#16 = 0#16 ∧
    ({ State.reset with status := 0x0014#16 } : State).LegalStatus ∧ ({ State.reset with status := 0x0057#16 } : State).LegalStatus := by
  decide

theorem witness_HoldsNoBuffer : State.reset.HoldsNoBuffer ∧
    ({ State.reset with events := [.acq .clean .left, .rel .clean .left] } : State).HoldsNoBuffer := by decide

/-- The state of the PROC witnesses: channel 0 processed, channel 1 with its dirty side missing. -/
def half : State := given (ready (flat 7) (flat 5) (same 0 0)) ⟨some (flat 9), none, same 0 0⟩

theorem witness_ProcFollowsThePseudocode :
    (periodInput half).left.clean = some (flat 7) ∧ (periodInput half).left.dirty = some (flat 5) ∧
    (periodInput half).right.dirty = none := ⟨rfl, rfl, rfl⟩

theorem witness_SkippedChannelLeavesNoTrace :
    half.engineIn = [⟨ready (flat 7) (flat 5) (same 0 0), ⟨some (flat 9), none, same 0 0⟩⟩] ∧
    ((PeriodInput.channel ⟨ready (flat 7) (flat 5) (same 0 0), ⟨some (flat 9), none, same 0 0⟩⟩ .right).dirty = none) ∧
    ((PeriodInput.channel ⟨ready (flat 7) (flat 5) (same 0 0), ⟨none, some (flat 3), same 9 1⟩⟩ .right).clean = none) ∧
    (∀ ch', ch' ≠ Channel.right →
      PeriodInput.channel ⟨ready (flat 7) (flat 5) (same 0 0), ⟨none, some (flat 3), same 9 1⟩⟩ ch' =
        PeriodInput.channel ⟨ready (flat 7) (flat 5) (same 0 0), ⟨some (flat 9), none, same 0 0⟩⟩ ch') := by
  refine ⟨rfl, rfl, rfl, fun ch' h => ?_⟩
  cases ch'
  · rfl
  · exact absurd rfl h

theorem witness_ProcReadsOnlyTheSnapshotAndItsInputs :
    ({ half with feedback := 9#15, status := 0x0057#16 } : State).mix = half.mix ∧
    ({ half with feedback := 9#15, status := 0x0057#16 } : State).noise = half.noise ∧
    ({ half with feedback := 9#15, status := 0x0057#16 } : State).density = half.density ∧
    periodInput { half with feedback := 9#15, status := 0x0057#16 } = periodInput half := ⟨rfl, rfl, rfl, rfl⟩

theorem witness_DryAndWetBlocksPassUnchanged :
    ((periodInput half).channel .left).clean = some (flat 7) ∧ ((periodInput half).channel .left).dirty = some (flat 5) ∧
    half.mix = 0#16 ∧ ({ half with mix := 0x8000#16, density := 0#7 } : State).mix = 0x8000#16 ∧
    ({ half with mix := 0x8000#16, density := 0#7 } : State).density = 0#7 := ⟨rfl, rfl, rfl, rfl, rfl⟩

/-- A block that agrees with `flat 7` in lane 127 and not in lane 0. -/
def other : Block := (flat 7).set 0 (bits16 8)

theorem witness_LaneDependsOnItsOwnLaneOnly : (127 < Config.N) ∧ (flat 7)[127] = other[127] ∧ (flat 7)[0] ≠ other[0] ∧
    (same 0 0)[127] = (same 0 0)[127] := by decide +kernel

/-- The ranges of samples, parameters and draws at both ends, for the statements on MIXLANE and DEGRADE. -/
theorem witness_ranges :
    (∃ c x m : Int, (-32768 ≤ c ∧ c ≤ 32767 ∧ -32768 ≤ x ∧ x ≤ 32767 ∧ 0 ≤ m ∧ m ≤ 32768) ∧ c = -32768 ∧ x = 32767 ∧ m = 0) ∧
    (∃ c x m : Int, (-32768 ≤ c ∧ c ≤ 32767 ∧ -32768 ≤ x ∧ x ≤ 32767 ∧ 0 ≤ m ∧ m ≤ 32768) ∧ c = 32767 ∧ x = -32768 ∧ m = 32768) ∧
    (∃ x noise density d u : Int, (-32768 ≤ x ∧ x ≤ 32767 ∧ 0 ≤ noise ∧ noise ≤ 60 ∧ 0 ≤ density ∧ density ≤ 100 ∧ 0 ≤ d ∧
      d ≤ 99 ∧ -32768 ≤ u ∧ u ≤ 32767 ∧ d < density) ∧ x = -32768 ∧ noise = 60 ∧ density = 100 ∧ d = 99 ∧ u = 32767) ∧
    (∃ x noise density d u : Int, (-32768 ≤ x ∧ x ≤ 32767 ∧ 0 ≤ noise ∧ noise ≤ 60 ∧ 0 ≤ density ∧ density ≤ 100 ∧ 0 ≤ d ∧
      d ≤ 99 ∧ -32768 ≤ u ∧ u ≤ 32767 ∧ density ≤ d) ∧ x = 32767 ∧ noise = 0 ∧ density = 0 ∧ d = 0 ∧ u = -32768) :=
  ⟨⟨-32768, 32767, 0, by decide⟩, ⟨32767, -32768, 32768, by decide⟩, ⟨-32768, 60, 100, 99, 32767, by decide⟩,
    ⟨32767, 0, 0, 0, -32768, by decide⟩⟩

theorem witness_DensityFiresThatManyDraws : (100 ≤ 100) ∧ (99 : Fin 100).val < 100 ∧ (0 ≤ 100) ∧ 0 ≤ (0 : Fin 100).val ∧
    (49 : Fin 100).val < 50 ∧ 50 ≤ (50 : Fin 100).val := by decide

/-- A grid cell shared by two samples, below and above zero. -/
theorem witness_DegradeLaws_cell : Int.fdiv (-1) (2 ^ crushShift 60) = Int.fdiv (-8192) (2 ^ crushShift 60) ∧
    Int.fdiv 8191 (2 ^ crushShift 60) = Int.fdiv 0 (2 ^ crushShift 60) := by decide

/-- Each case of R139: on the grid with no noise, the noise makes up the difference, and the two clips. -/
theorem witness_FiredLaneMayReturnItsInput :
    ((2 : Int) ^ crushShift 20 ∣ 16384 ∧ noiseTerm 20 0 = 0) ∧ noiseTerm 20 1020 = 3276 - crush 20 3276 ∧
    noiseTerm 60 (-32768) ≤ 0 ∧ 32767 ≤ crush 60 32767 + noiseTerm 60 32767 := by decide

theorem witness_NoiseTermIsTheFlooredProduct : ((0 : Int) = 0 ∨ (5 : Int) = 0) ∧ ((60 : Int) = 0 ∨ (0 : Int) = 0) := by decide

theorem witness_Launched : State.reset.Launched ∧
    ({ State.reset with fbMax := 1#15, ctrlIn := [0x14000096#32], turns := [.command .ctrl] } : State).Launched :=
  ⟨⟨by decide, rfl⟩, ⟨by decide, rfl⟩⟩

/-- ILL set; a turn that is no assertion of reset, and one that is. -/
theorem witness_IllegalFlagIsStickyUntilReset :
    statusILL ({ State.reset with status := 0x0014#16 } : State).status = true ∧
    (∀ ts, ({ State.reset with status := 0x0014#16, turns := [.releaseReset] } : State).turns ≠ .assertReset :: ts) ∧
    (∃ ts, ({ State.reset with status := 0x0014#16, turns := [.assertReset] } : State).turns = .assertReset :: ts) :=
  ⟨by decide, by intro ts; simp, ⟨[], rfl⟩⟩

theorem witness_IllegalWordIsDiscardedAndRecorded :
    (waits .period 0x10000000#32 State.reset).turns = .command .period :: [] ∧
    (waits .period 0x10000000#32 State.reset).waiting .period = 0x10000000#32 :: [] ∧
    (waits .period 0x10000000#32 State.reset).inReset = false ∧ decode .period 0x10000000#32 = .illegal .wrongPort := by decide

/-- Every cause, at a word that has it. -/
theorem witness_FirstIllegalWordRecordsItsCode :
    decode .ctrl 0x40000000#32 = .illegal .reservedOp ∧ decode .ctrl 0x30000000#32 = .illegal .wrongPort ∧
    decode .ctrl 0x00000001#32 = .illegal .reservedField ∧ decode .ctrl 0x17000000#32 = .illegal .reservedReg ∧
    decode .ctrl 0x15000000#32 = .illegal .readOnly ∧ statusILL State.reset.status = false ∧
    statusILLC State.reset.status = 0#3 := by decide

theorem witness_PeriodPortWritesNoParameter : (waits .period 0x30000000#32 State.reset).turns = .command .period :: [] := by decide

/-- `fb_gain` moves at a WRP.FEEDBACK and `delay_ms` at a WRP.DELAY, each in one step, and at a reset. -/
theorem witness_OutputPortsMoveOnlyWithTheirRegisters :
    (landed (step (waits .ctrl 0x13000005#32 State.reset)) State.reset).fbGain ≠ State.reset.fbGain ∧
    (landed (step (waits .ctrl 0x14000005#32 State.reset)) State.reset).delayMs ≠ State.reset.delayMs ∧
    (landed (step { State.reset with delay := 300#9, turns := [.assertReset] }) State.reset).delayMs ≠ 300#9 := by decide

theorem witness_NoCommandWritesTwoParameters : isParam .mix = true ∧ isParam .delay = true ∧ Reg.mix ≠ Reg.delay ∧
    readReg .mix (did (.wrpMix 1#16) State.reset) ≠ readReg .mix State.reset := by decide

theorem witness_CommandsLeaveTheRestUnchanged : Instr.nop ≠ .proc ∧ Instr.wrpDelay 0#16 ≠ .proc := by decide

theorem witness_AssertedResetRestoresTheRegisters :
    ({ State.reset with mix := 0x8000#16, status := 0x0057#16, turns := [.assertReset] } : State).turns = .assertReset :: [] := by
  decide

theorem witness_WordsDuringResetAreDropped :
    (waits .ctrl 0x40000000#32 { State.reset with inReset := true }).turns = .command .ctrl :: [] ∧
    (waits .ctrl 0x40000000#32 { State.reset with inReset := true }).waiting .ctrl = 0x40000000#32 :: [] ∧
    (waits .ctrl 0x40000000#32 { State.reset with inReset := true }).inReset = true := by decide

/-- A release of reset, and a release followed by the turn of a port with a waiting word. -/
theorem witness_WordsDuringResetAreDropped_release :
    ({ State.reset with inReset := true, turns := [.releaseReset] } : State).turns = .releaseReset :: [] ∧
    ({ waits .ctrl 0x14000096#32 State.reset with inReset := true, turns := [.releaseReset, .command .ctrl] } : State).turns =
      .releaseReset :: .command .ctrl :: [] ∧
    ({ waits .ctrl 0x14000096#32 State.reset with inReset := true, turns := [.releaseReset, .command .ctrl] } : State).waiting .ctrl =
      0x14000096#32 :: [] := by decide

theorem witness_FirstProcAfterResetIsDry : half.Launched ∧ (periodInput half).left.clean = some (flat 7) ∧
    (periodInput half).right.dirty = none := ⟨⟨by decide, rfl⟩, rfl, rfl⟩

/-- Two words, one on each port, and three turns, one of them of a port with no word left. -/
theorem witness_RunAppliesTheMergedOrder :
    ({ State.reset with ctrlIn := [0x10008000#32], periodIn := [0x30000000#32],
                        turns := [.command .ctrl, .command .period, .command .ctrl] } : State).inReset = false ∧
    (∀ t ∈ [Turn.command .ctrl, .command .period, .command .ctrl], ∃ p, t = .command p) := by
  refine ⟨rfl, fun t h => ?_⟩
  simp only [List.mem_cons, List.not_mem_nil, or_false] at h
  rcases h with rfl | rfl | rfl
  · exact ⟨_, rfl⟩
  · exact ⟨_, rfl⟩
  · exact ⟨_, rfl⟩

/-- The assembler's range of immediates at its two ends, and just outside. -/
theorem witness_AssemblerAcceptsExactlyTheImmediateRange :
    assembleStmt (.wrp .delay 0) = some 0x14000000#32 ∧ assembleStmt (.wrp .delay 65535) = some 0x1400FFFF#32 ∧
    assembleStmt (.wrp .delay 65536) = none ∧ assembleStmt (.wrp .delay (-1)) = none ∧ assembleStmt (.wrp .id 0) = none := by decide

end Sys2Proof.Tests
end

section
/-! PROOFS. What a command can do and what it leaves unchanged: one case per kind of effect, and the frame of each. -/

namespace Sys2Proof.Machine

/-- What a command can do from `s` (R100, R104, R112, R151). `exec_eq_next_iff` ties it to `exec`. -/
inductive CommandEffect (s : State) : Instr → State → Prop
  | nop : CommandEffect s .nop s
  | wrpMix (imm : Half) : CommandEffect s (.wrpMix imm) (s.withMix (clampMix (zext16 imm)))
  | wrpNoise (imm : Half) : CommandEffect s (.wrpNoise imm) (s.withNoise (clampNoise (zext16 imm)))
  | wrpDensity (imm : Half) : CommandEffect s (.wrpDensity imm) (s.withDensity (clampDensity (zext16 imm)))
  | wrpFeedback (imm : Half) :
      CommandEffect s (.wrpFeedback imm) (s.withFeedback (clampFeedback s.fbMax (zext16 imm)))
  | wrpDelay (imm : Half) : CommandEffect s (.wrpDelay imm) (s.withDelay (clampDelay (zext16 imm)))
  | rdp (r : Reg) : CommandEffect s (rdpOf r) (respond (readReg r s) s)
  | proc : CommandEffect s .proc (procState s)

/-- Every command completes, with one of those effects. -/
theorem exec_effect (i : Instr) (s : State) : ∃ t, exec i s = .next t ∧ CommandEffect s i t := by
  cases i with
  | nop => exact ⟨_, rfl, .nop⟩
  | wrpMix imm => exact ⟨_, rfl, .wrpMix imm⟩
  | wrpNoise imm => exact ⟨_, rfl, .wrpNoise imm⟩
  | wrpDensity imm => exact ⟨_, rfl, .wrpDensity imm⟩
  | wrpFeedback imm => exact ⟨_, rfl, .wrpFeedback imm⟩
  | wrpDelay imm => exact ⟨_, rfl, .wrpDelay imm⟩
  | rdpMix => exact ⟨_, rfl, .rdp .mix⟩
  | rdpNoise => exact ⟨_, rfl, .rdp .noise⟩
  | rdpDensity => exact ⟨_, rfl, .rdp .density⟩
  | rdpFeedback => exact ⟨_, rfl, .rdp .feedback⟩
  | rdpDelay => exact ⟨_, rfl, .rdp .delay⟩
  | rdpStatus => exact ⟨_, rfl, .rdp .status⟩
  | rdpId => exact ⟨_, rfl, .rdp .id⟩
  | proc => exact ⟨_, rfl, .proc⟩

/-- The effects are exactly what `exec` answers. -/
theorem exec_eq_next_iff (i : Instr) (s t : State) : exec i s = .next t ↔ CommandEffect s i t := by
  constructor
  · intro h
    obtain ⟨u, hu, heff⟩ := exec_effect i s
    cases hu.symm.trans h
    exact heff
  · intro heff
    cases heff with
    | rdp r => cases r <;> rfl
    | _ => rfl

/-! ### The parameter registers -/

/-- The parameter register a command writes (R100); PROC and the RDP commands write none. -/
def writtenParam : Instr → Option Reg
  | .wrpMix _ => some .mix
  | .wrpNoise _ => some .noise
  | .wrpDensity _ => some .density
  | .wrpFeedback _ => some .feedback
  | .wrpDelay _ => some .delay
  | _ => none

theorem writtenParam_eq_feedback {i : Instr} (h : writtenParam i = some .feedback) : ∃ imm, i = .wrpFeedback imm := by
  cases i with
  | wrpFeedback imm => exact ⟨imm, rfl⟩
  | _ => cases h

theorem writtenParam_eq_delay {i : Instr} (h : writtenParam i = some .delay) : ∃ imm, i = .wrpDelay imm := by
  cases i with
  | wrpDelay imm => exact ⟨imm, rfl⟩
  | _ => cases h

/-- A command leaves every parameter register alone but the one it writes. -/
theorem CommandEffect.readReg_eq {s t : State} {i : Instr} {r : Reg} (h : CommandEffect s i t)
    (hr : isParam r = true) (hw : writtenParam i ≠ some r) : readReg r t = readReg r s := by
  cases h with
  | nop => rfl
  | wrpMix imm => cases r with
    | mix => exact absurd rfl hw
    | _ => rfl
  | wrpNoise imm => cases r with
    | noise => exact absurd rfl hw
    | _ => rfl
  | wrpDensity imm => cases r with
    | density => exact absurd rfl hw
    | _ => rfl
  | wrpFeedback imm => cases r with
    | feedback => exact absurd rfl hw
    | _ => rfl
  | wrpDelay imm => cases r with
    | delay => exact absurd rfl hw
    | _ => rfl
  | rdp r' => cases r <;> rfl
  | proc =>
    rw [procState_eq]
    cases r with
    | status => cases hr
    | _ => rfl

@[simp] theorem readReg_withTurns (r : Reg) (s : State) (ts : List Turn) : readReg r (s.withTurns ts) = readReg r s := by
  cases r <;> rfl

@[simp] theorem readReg_withWaiting (r : Reg) (s : State) (p : Port) (ws : List Word) :
    readReg r (s.withWaiting p ws) = readReg r s := by
  cases p <;> cases r <;> rfl

@[simp] theorem readReg_withReset (r : Reg) (s : State) (b : Bool) : readReg r (s.withReset b) = readReg r s := by
  cases r <;> rfl

/-- An illegal word writes no parameter register (R191). -/
theorem readReg_raiseIllegal (c : Cause) (s : State) {r : Reg} (hr : isParam r = true) :
    readReg r (raiseIllegal c s) = readReg r s := by
  cases r with
  | status => cases hr
  | _ => rfl

/-! ### STATUS and the rest of the state -/

/-- Of the commands only PROC writes STATUS, and it writes PL and PR (R38, R162). -/
theorem CommandEffect.status_cases {s t : State} {i : Instr} (h : CommandEffect s i t) :
    t.status = s.status ∨ ∃ pl pr, i = .proc ∧ t.status = setProcessed s.status pl pr := by
  cases h with
  | proc =>
    rw [procState_eq]
    exact .inr ⟨_, _, rfl, rfl⟩
  | _ => exact .inl rfl

/-- No command touches ILL, ILLC or the reserved bits (R28). -/
theorem CommandEffect.illegal_fields_eq {s t : State} {i : Instr} (h : CommandEffect s i t) :
    statusILL t.status = statusILL s.status ∧ statusILLC t.status = statusILLC s.status ∧
      statusReserved t.status = statusReserved s.status := by
  obtain hst | ⟨pl, pr, -, hst⟩ := h.status_cases <;> simp [hst]

/-- Only PROC loads the snapshot or uses up what the engine and the random source present (R33, R150). -/
theorem CommandEffect.proc_frame {s t : State} {i : Instr} (h : CommandEffect s i t) (hi : i ≠ .proc) :
    t.status = s.status ∧ t.snapshot = s.snapshot ∧ t.engineIn = s.engineIn ∧ t.periods = s.periods ∧ t.rng = s.rng := by
  cases h with
  | proc => exact absurd rfl hi
  | _ => exact ⟨rfl, rfl, rfl, rfl, rfl⟩

/-- No command changes the build, the reset input, the queues or the turns. -/
theorem CommandEffect.outside_frame {s t : State} {i : Instr} (h : CommandEffect s i t) :
    t.fbMax = s.fbMax ∧ t.inReset = s.inReset ∧ t.ctrlIn = s.ctrlIn ∧ t.periodIn = s.periodIn ∧ t.turns = s.turns := by
  cases h with
  | proc =>
    rw [procState_eq]
    exact ⟨rfl, rfl, rfl, rfl, rfl⟩
  | _ => exact ⟨rfl, rfl, rfl, rfl, rfl⟩

/-- The history only grows (R36): an RDP adds its response, a PROC the events of its channels. -/
theorem CommandEffect.events_append {s t : State} {i : Instr} (h : CommandEffect s i t) :
    ∃ es, t.events = s.events ++ es := by
  cases h with
  | rdp r => exact ⟨_, rfl⟩
  | proc =>
    rw [procState_eq]
    exact ⟨_, List.append_assoc ..⟩
  | _ => exact ⟨[], (List.append_nil _).symm⟩

end Sys2Proof.Machine
end

section
/-! PROOFS. The invariants of a step (R28, R30): what every move keeps, every step keeps. -/

namespace Sys2Proof.Machine

/-- Every single move of the machine keeps `P`: the outside world's bookkeeping, the reset, an illegal word and a command. -/
structure KeptByMoves (P : State → Prop) : Prop where
  turns : ∀ s ts, P s → P (s.withTurns ts)
  waiting : ∀ s p ws, P s → P (s.withWaiting p ws)
  level : ∀ s b, P s → P (s.withReset b)
  reset : ∀ s, P s → P (applyReset s)
  illegal : ∀ s c, P s → P (raiseIllegal c s)
  command : ∀ s i t, CommandEffect s i t → P s → P t

theorem KeptByMoves.applyWord {P : State → Prop} (hP : KeptByMoves P) (p : Port) (w : Word) (s : State) (hs : P s) :
    ∃ t, applyWord p w s = .next t ∧ P t := by
  obtain ⟨i, -, happly⟩ | ⟨c, -, happly⟩ := applyWord_cases p w s
  · obtain ⟨t, hexec, heff⟩ := exec_effect i s
    exact ⟨t, happly.trans hexec, hP.command s i t heff hs⟩
  · exact ⟨_, happly, hP.illegal s c hs⟩

theorem KeptByMoves.servePort {P : State → Prop} (hP : KeptByMoves P) (p : Port) (s : State) (hs : P s) :
    ∃ t, servePort p s = .next t ∧ P t := by
  obtain ⟨-, hserve⟩ | ⟨w, ws, -, -, hserve⟩ | ⟨w, ws, -, -, hserve⟩ := servePort_cases p s
  · exact ⟨s, hserve, hs⟩
  · exact ⟨_, hserve, hP.waiting s p ws hs⟩
  · obtain ⟨t, happly, ht⟩ := hP.applyWord p w _ (hP.waiting s p ws hs)
    exact ⟨t, hserve.trans happly, ht⟩

/-- What every move keeps, every step keeps, and every step completes. -/
theorem KeptByMoves.step {P : State → Prop} (hP : KeptByMoves P) (s : State) (hs : P s) :
    ∃ t, step s = .next t ∧ P t := by
  obtain ⟨-, hstep⟩ | ⟨p, ts, -, hstep⟩ | ⟨ts, -, hstep⟩ | ⟨ts, -, hstep⟩ := step_cases s
  · exact ⟨s, hstep, hs⟩
  · obtain ⟨t, hserve, ht⟩ := hP.servePort p _ (hP.turns s ts hs)
    exact ⟨t, hstep.trans hserve, ht⟩
  · exact ⟨_, hstep, hP.level _ true (hP.reset _ (hP.turns s ts hs))⟩
  · exact ⟨_, hstep, hP.level _ false (hP.turns s ts hs)⟩

/-! ### Legal parameters (R30) -/

/-- A WRP stores a clamped, hence legal, value, and the other commands write no parameter. -/
theorem CommandEffect.legalParams {s t : State} {i : Instr} (h : CommandEffect s i t) (hs : s.LegalParams) :
    t.LegalParams := by
  cases h with
  | nop => exact hs
  | rdp r => exact hs
  | proc =>
    rw [procState_eq]
    exact hs
  | wrpMix imm =>
    obtain ⟨-, hothers⟩ := hs
    exact ⟨(clampMix_toNat _).trans_le (min_le_right _ _), hothers⟩
  | wrpNoise imm =>
    obtain ⟨hmix, -, hothers⟩ := hs
    exact ⟨hmix, (clampNoise_toNat _).trans_le (min_le_right _ _), hothers⟩
  | wrpDensity imm =>
    obtain ⟨hmix, hnoise, -, hothers⟩ := hs
    exact ⟨hmix, hnoise, (clampDensity_toNat _).trans_le (min_le_right _ _), hothers⟩
  | wrpFeedback imm =>
    obtain ⟨hmix, hnoise, hdensity, -, hothers⟩ := hs
    exact ⟨hmix, hnoise, hdensity, (clampFeedback_toNat _ _).trans_le (min_le_right _ _), hothers⟩
  | wrpDelay imm =>
    obtain ⟨hmix, hnoise, hdensity, hfeedback, -, -, hbuild⟩ := hs
    have hdelay := clampDelay_toNat (zext16 imm)
    exact ⟨hmix, hnoise, hdensity, hfeedback, by simp only [State.withDelay_delay]; omega,
      by simp only [State.withDelay_delay]; omega, hbuild⟩

/-- The reset values are legal in every legal build (R39). -/
theorem legalParams_applyReset (s : State) (hbuild : 1 ≤ s.fbMax.toNat) : (applyReset s).LegalParams :=
  have ⟨hmix, hnoise, hdensity, _, hdelayLo, hdelayHi, _⟩ : State.reset.LegalParams := by decide
  ⟨hmix, hnoise, hdensity, Nat.zero_le _, hdelayLo, hdelayHi, hbuild⟩

theorem legalParams_keptByMoves : KeptByMoves State.LegalParams where
  turns _ _ hs := hs
  waiting _ p _ hs := by cases p <;> exact hs
  level _ _ hs := hs
  reset s hs := by
    obtain ⟨-, -, -, -, -, -, hbuild⟩ := hs
    exact legalParams_applyReset s hbuild
  illegal _ _ hs := hs
  command _ _ _ heff hs := heff.legalParams hs

/-- Settles O36: each move stores only clamped values or the reset values. -/
theorem stepKeepsLegalParameters : Obligations.StepKeepsLegalParameters :=
  legalParams_keptByMoves.step

/-! ### The form of STATUS (R28, R192) -/

/-- The causes are numbered 1 to 5 (R192). -/
theorem Cause.code_mem (c : Cause) : 1 ≤ c.code.toNat ∧ c.code.toNat ≤ 5 := by
  cases c <;> decide

/-- The form of STATUS speaks of ILL, ILLC and the reserved bits alone. -/
theorem State.LegalStatus.congr {s t : State} (hs : s.LegalStatus) (hill : statusILL t.status = statusILL s.status)
    (hillc : statusILLC t.status = statusILLC s.status) (hres : statusReserved t.status = statusReserved s.status) :
    t.LegalStatus := by
  simpa only [State.LegalStatus, hill, hillc, hres] using hs

/-- An illegal word sets ILL and leaves a legal cause in ILLC: the one that stood there, or its own (R191). -/
theorem legalStatus_raiseIllegal (s : State) (c : Cause) (hs : s.LegalStatus) : (raiseIllegal c s).LegalStatus := by
  obtain ⟨hres, -, hcause⟩ := hs
  refine ⟨(statusReserved_recordIllegal s.status c).trans hres, fun hill => ?_, fun _ => ?_⟩
  · exact absurd ((statusILL_recordIllegal s.status c).symm.trans hill) (by decide)
  · rw [raiseIllegal_eq, statusILLC_recordIllegal]
    split
    · exact hcause ‹_›
    · exact Cause.code_mem c

theorem legalStatus_keptByMoves : KeptByMoves State.LegalStatus where
  turns _ _ hs := hs
  waiting _ p _ hs := by cases p <;> exact hs
  level _ _ hs := hs
  reset s _ := (by decide : State.reset.LegalStatus)
  illegal := legalStatus_raiseIllegal
  command _ _ _ heff hs := by
    obtain ⟨hill, hillc, hres⟩ := heff.illegal_fields_eq
    exact hs.congr hill hillc hres

/-- Settles O37: PROC keeps ILL, ILLC and the reserved bits, an illegal word records a cause of 1 to 5, reset clears all. -/
theorem stepKeepsTheFormOfStatus : Obligations.StepKeepsTheFormOfStatus :=
  legalStatus_keptByMoves.step

end Sys2Proof.Machine
end

section
/-! PROOFS. Which step moves a parameter register and its port (R31, R32), and the frame of a command (R28, R33, R36, R38). -/

namespace Sys2Proof.Machine

/-- The PERIOD port takes NOP and PROC only (R71). -/
theorem decode_period_legal {w : Word} {i : Instr} (h : decode .period w = .legal i) : i = .nop ∨ i = .proc := by
  unfold decode at h
  cases hop : Op.ofField (opField w) with
  | none => simp [hop] at h
  | some op =>
    cases op with
    | wrp => simp [hop, accepts] at h
    | rdp => simp [hop, accepts] at h
    | nop =>
      simp only [hop] at h
      split_ifs at h
      exact .inl (Decoded.legal.inj h).symm
    | proc =>
      simp only [hop] at h
      split_ifs at h
      exact .inr (Decoded.legal.inj h).symm

/-- A command that writes a parameter came in on the CTRL port (R59). -/
theorem port_eq_ctrl_of_writtenParam {p : Port} {w : Word} {i : Instr} {r : Reg} (h : decode p w = .legal i)
    (hw : writtenParam i = some r) : p = .ctrl := by
  cases p with
  | ctrl => rfl
  | period => obtain rfl | rfl := decode_period_legal h <;> cases hw

/-- The step from `s` applies a command that writes parameter register `r`. -/
def AppliesWriteOf (r : Reg) (s : State) : Prop :=
  ∃ ts w ws i, s.turns = .command .ctrl :: ts ∧ s.ctrlIn = w :: ws ∧ s.inReset = false ∧
    decode .ctrl w = .legal i ∧ writtenParam i = some r

/-- Serving a port moves a parameter register only by applying a write of it. -/
theorem servePort_moves_param (p : Port) (ts : List Turn) (s : State) (hts : s.turns = .command p :: ts) :
    ∃ t, servePort p (s.withTurns ts) = .next t ∧
      ∀ r, isParam r = true → readReg r t ≠ readReg r s → AppliesWriteOf r s := by
  obtain ⟨-, hserve⟩ | ⟨w, ws, -, -, hserve⟩ | ⟨w, ws, hwait, hlevel, hserve⟩ := servePort_cases p (s.withTurns ts)
  · exact ⟨_, hserve, fun r _ hne => absurd (by simp) hne⟩
  · exact ⟨_, hserve, fun r _ hne => absurd (by simp) hne⟩
  · obtain ⟨i, hdec, happly⟩ | ⟨c, -, happly⟩ := applyWord_cases p w ((s.withTurns ts).withWaiting p ws)
    · obtain ⟨t, hexec, heff⟩ := exec_effect i ((s.withTurns ts).withWaiting p ws)
      refine ⟨t, hserve.trans (happly.trans hexec), fun r hr hne => ?_⟩
      have hw : writtenParam i = some r := by
        by_contra hw
        exact hne (by simp [heff.readReg_eq hr hw])
      obtain rfl := port_eq_ctrl_of_writtenParam hdec hw
      exact ⟨ts, w, ws, i, hts, hwait, hlevel, hdec, hw⟩
    · exact ⟨_, hserve.trans happly, fun r hr hne => absurd (by simp [readReg_raiseIllegal c _ hr]) hne⟩

/-- A step moves a parameter register only by applying a write of it or by an assertion of reset. -/
theorem step_moves_param (s : State) :
    ∃ t, step s = .next t ∧ ∀ r, isParam r = true → readReg r t ≠ readReg r s →
      (∃ ts, s.turns = .assertReset :: ts) ∨ AppliesWriteOf r s := by
  obtain ⟨-, hstep⟩ | ⟨p, ts, hts, hstep⟩ | ⟨ts, hts, hstep⟩ | ⟨ts, -, hstep⟩ := step_cases s
  · exact ⟨s, hstep, fun r _ hne => absurd rfl hne⟩
  · obtain ⟨t, hserve, hmoves⟩ := servePort_moves_param p ts s hts
    exact ⟨t, hstep.trans hserve, fun r hr hne => .inr (hmoves r hr hne)⟩
  · exact ⟨_, hstep, fun r _ _ => .inl ⟨ts, hts⟩⟩
  · exact ⟨_, hstep, fun r _ hne => absurd (by simp) hne⟩

/-- Padding to 16 bits loses nothing, so a port that moves is a register that reads otherwise. -/
theorem pad16_injective {n : Nat} (hn : n ≤ 16) : Function.Injective (pad16 : BitVec n → Half) := by
  intro v w h
  have hnat := congrArg BitVec.toNat h
  simp only [pad16, BitVec.toNat_setWidth_of_le hn] at hnat
  exact BitVec.eq_of_toNat_eq hnat

/-- Settles O45: a port that moves is a register that moves, and the write is the WRP of that register. -/
theorem outputPortsMoveOnlyWithTheirRegisters : Obligations.OutputPortsMoveOnlyWithTheirRegisters := by
  intro s
  obtain ⟨t, hstep, hmoves⟩ := step_moves_param s
  refine ⟨rfl, rfl, t, hstep, fun hne => ?_, fun hne => ?_⟩
  · refine (hmoves .feedback rfl ((pad16_injective (by decide)).ne hne)).imp_right ?_
    rintro ⟨ts, w, ws, i, hts, hin, hlevel, hdec, hw⟩
    obtain ⟨imm, rfl⟩ := writtenParam_eq_feedback hw
    exact ⟨ts, w, ws, imm, hts, hin, hlevel, hdec⟩
  · refine (hmoves .delay rfl ((pad16_injective (by decide)).ne hne)).imp_right ?_
    rintro ⟨ts, w, ws, i, hts, hin, hlevel, hdec, hw⟩
    obtain ⟨imm, rfl⟩ := writtenParam_eq_delay hw
    exact ⟨ts, w, ws, imm, hts, hin, hlevel, hdec⟩

/-- Settles O46: a register that moved is the one the command writes, so another one is not. -/
theorem noCommandWritesTwoParameters : Obligations.NoCommandWritesTwoParameters := by
  intro i s
  obtain ⟨t, hexec, heff⟩ := exec_effect i s
  refine ⟨t, hexec, fun r r' hr hr' hrr' hne => heff.readReg_eq hr' fun hw' => ?_⟩
  have hw : writtenParam i = some r := by
    by_contra hw
    exact hne (heff.readReg_eq hr hw)
  exact hrr' (Option.some.inj (hw.symm.trans hw'))

/-- Settles O47: the frames of a command's effect, side by side. -/
theorem commandsLeaveTheRestUnchanged : Obligations.CommandsLeaveTheRestUnchanged := by
  intro i s
  obtain ⟨t, hexec, heff⟩ := exec_effect i s
  obtain ⟨hill, hillc, hres⟩ := heff.illegal_fields_eq
  obtain ⟨hbuild, hlevel, hctrl, hperiod, hturns⟩ := heff.outside_frame
  exact ⟨t, hexec, heff.proc_frame, hill, hillc, hres, hbuild, hlevel, hctrl, hperiod, hturns, heff.events_append⟩

end Sys2Proof.Machine
end

section
/-! PROOFS. The launch state (R39): its registers and the invariants it meets. -/

namespace Sys2Proof.Machine

/-- The registers and the history of a launch state are those of `State.reset`. -/
theorem State.Launched.registers {s : State} (h : s.Launched) :
    s.mix = 0#16 ∧ s.noise = 20#6 ∧ s.density = 5#7 ∧ s.feedback = 0#15 ∧ s.delay = 1#9 ∧ s.status = 0#16 ∧
      s.events = [] := by
  obtain ⟨-, hs⟩ := h
  exact ⟨congrArg State.mix hs, congrArg State.noise hs, congrArg State.density hs, congrArg State.feedback hs,
    congrArg State.delay hs, congrArg State.status hs, congrArg State.events hs⟩

theorem State.Launched.legalParams {s : State} (h : s.Launched) : s.LegalParams := by
  obtain ⟨hmix, hnoise, hdensity, hfeedback, hdelay, -⟩ := h.registers
  obtain ⟨hbuild, -⟩ := h
  simp [State.LegalParams, hmix, hnoise, hdensity, hfeedback, hdelay, hbuild]

theorem State.Launched.legalStatus {s : State} (h : s.Launched) : s.LegalStatus := by
  obtain ⟨-, -, -, -, -, hstatus, -⟩ := h.registers
  have hreset : State.reset.LegalStatus := by decide
  have hsame : s.status = State.reset.status := hstatus
  exact hreset.congr (by rw [hsame]) (by rw [hsame]) (by rw [hsame])

theorem State.Launched.holdsNoBuffer {s : State} (h : s.Launched) : s.HoldsNoBuffer := by
  obtain ⟨-, -, -, -, -, -, hevents⟩ := h.registers
  rw [State.HoldsNoBuffer, hevents]
  rfl

theorem launched_reset : State.reset.Launched := ⟨by decide, rfl⟩

/-- Settles O39: the listed values are the launch state's registers, and its ports are two of them. -/
theorem launchStateIsLegal : Obligations.LaunchStateIsLegal := by
  refine ⟨launched_reset, fun s h => ?_⟩
  obtain ⟨hmix, hnoise, hdensity, hfeedback, hdelay, hstatus, -⟩ := h.registers
  exact ⟨hmix, hnoise, hdensity, hfeedback, hdelay, hstatus, hfeedback, hdelay, rfl, h.legalParams, h.legalStatus,
    h.holdsNoBuffer⟩

end Sys2Proof.Machine
end

section
/-! PROOFS. Applying one word and a merged order of words (R57): every word completes, and what it does not read. -/

namespace Sys2Proof.Machine

/-! ### One word -/

/-- What a word received on a port can do (R78, R191). `applyWord_eq_next_iff` ties it to `applyWord`. -/
inductive WordEffect (p : Port) (w : Word) (s : State) : State → Prop
  | command {i : Instr} {t : State} (hdec : decode p w = .legal i) (heff : CommandEffect s i t) : WordEffect p w s t
  | illegal {c : Cause} (hdec : decode p w = .illegal c) : WordEffect p w s (raiseIllegal c s)

/-- Every word completes, with one of those effects. -/
theorem applyWord_effect (p : Port) (w : Word) (s : State) : ∃ t, applyWord p w s = .next t ∧ WordEffect p w s t := by
  obtain ⟨i, hdec, happly⟩ | ⟨c, hdec, happly⟩ := applyWord_cases p w s
  · obtain ⟨t, hexec, heff⟩ := exec_effect i s
    exact ⟨t, happly.trans hexec, .command hdec heff⟩
  · exact ⟨_, happly, .illegal hdec⟩

theorem applyWord_of_legal {p : Port} {w : Word} {i : Instr} (hdec : decode p w = .legal i) (s : State) :
    applyWord p w s = exec i s := by
  simp [applyWord, hdec]

theorem applyWord_of_illegal {p : Port} {w : Word} {c : Cause} (hdec : decode p w = .illegal c) (s : State) :
    applyWord p w s = .next (raiseIllegal c s) := by
  simp [applyWord, hdec]

/-- The effects are exactly what `applyWord` answers. -/
theorem applyWord_eq_next_iff (p : Port) (w : Word) (s t : State) : applyWord p w s = .next t ↔ WordEffect p w s t := by
  constructor
  · intro h
    obtain ⟨u, hu, heff⟩ := applyWord_effect p w s
    cases hu.symm.trans h
    exact heff
  · intro heff
    cases heff with
    | command hdec hcmd => exact (applyWord_of_legal hdec s).trans ((exec_eq_next_iff _ s t).mpr hcmd)
    | illegal hdec => exact applyWord_of_illegal hdec s

/-- A word touches neither the reset input nor what waits on the ports nor the turns. -/
theorem WordEffect.outside_frame {p : Port} {w : Word} {s t : State} (h : WordEffect p w s t) :
    t.inReset = s.inReset ∧ t.ctrlIn = s.ctrlIn ∧ t.periodIn = s.periodIn ∧ t.turns = s.turns := by
  cases h with
  | command _ heff =>
    obtain ⟨-, hlevel, hctrl, hperiod, hturns⟩ := heff.outside_frame
    exact ⟨hlevel, hctrl, hperiod, hturns⟩
  | illegal _ => exact ⟨rfl, rfl, rfl, rfl⟩

theorem WordEffect.waiting_eq {p : Port} {w : Word} {s t : State} (h : WordEffect p w s t) (q : Port) :
    t.waiting q = s.waiting q := by
  obtain ⟨-, hctrl, hperiod, -⟩ := h.outside_frame
  cases q with
  | ctrl => exact hctrl
  | period => exact hperiod

/-! ### The queues and the turns are no input of a command -/

/-- Other turns to come and other words waiting, everything else as it is. -/
def State.withPresented (s : State) (ts : List Turn) (cs ps : List Word) : State :=
  { s with turns := ts, ctrlIn := cs, periodIn := ps }

theorem CommandEffect.withPresented {s t : State} {i : Instr} (h : CommandEffect s i t) (ts : List Turn)
    (cs ps : List Word) : CommandEffect (s.withPresented ts cs ps) i (t.withPresented ts cs ps) := by
  cases h with
  | nop => exact .nop
  | wrpMix imm => exact .wrpMix imm
  | wrpNoise imm => exact .wrpNoise imm
  | wrpDensity imm => exact .wrpDensity imm
  | wrpFeedback imm => exact .wrpFeedback imm
  | wrpDelay imm => exact .wrpDelay imm
  | rdp r =>
    have hread : readReg r (s.withPresented ts cs ps) = readReg r s := by cases r <;> rfl
    have hrespond : respond (readReg r (s.withPresented ts cs ps)) (s.withPresented ts cs ps) =
        (respond (readReg r s) s).withPresented ts cs ps := by
      rw [hread]
      rfl
    exact hrespond ▸ .rdp r
  | proc =>
    have hinput : periodInput (s.withPresented ts cs ps) = periodInput s := periodInput_congr _ _ rfl rfl rfl
    have hproc : procState (s.withPresented ts cs ps) = (procState s).withPresented ts cs ps := by
      rw [procState_eq, procState_eq, hinput]
      rfl
    exact hproc ▸ .proc

theorem WordEffect.withPresented {p : Port} {w : Word} {s t : State} (h : WordEffect p w s t) (ts : List Turn)
    (cs ps : List Word) : WordEffect p w (s.withPresented ts cs ps) (t.withPresented ts cs ps) := by
  cases h with
  | command hdec heff => exact .command hdec (heff.withPresented ts cs ps)
  | illegal hdec => exact .illegal hdec

/-! ### A merged order of words -/

theorem applyAll_cons {p : Port} {w : Word} {s t : State} (h : applyWord p w s = .next t) (m : List (Port × Word)) :
    applyAll ((p, w) :: m) s = applyAll m t := by
  simp [applyAll, h]

theorem applyAll_append {m : List (Port × Word)} {s t : State} (h : applyAll m s = .next t) (m' : List (Port × Word)) :
    applyAll (m ++ m') s = applyAll m' t := by
  induction m generalizing s with
  | nil => cases h; rfl
  | cons q m ih =>
    obtain ⟨u, happly, -⟩ := applyWord_effect q.1 q.2 s
    rw [applyAll_cons happly] at h
    exact (applyAll_cons happly (m ++ m')).trans (ih h)

theorem applyAll_withPresented {m : List (Port × Word)} {s t : State} (h : applyAll m s = .next t) (ts : List Turn)
    (cs ps : List Word) : applyAll m (s.withPresented ts cs ps) = .next (t.withPresented ts cs ps) := by
  induction m generalizing s with
  | nil => cases h; rfl
  | cons q m ih =>
    obtain ⟨u, happly, heff⟩ := applyWord_effect q.1 q.2 s
    rw [applyAll_cons happly] at h
    exact (applyAll_cons ((applyWord_eq_next_iff ..).mpr (heff.withPresented ts cs ps)) m).trans (ih h)

/-- Words applied one at a time never stop the machine (R203). -/
theorem applyAll_completes (m : List (Port × Word)) (s : State) : ∃ t, applyAll m s = .next t := by
  induction m generalizing s with
  | nil => exact ⟨s, rfl⟩
  | cons q m ih =>
    obtain ⟨u, happly, -⟩ := applyWord_effect q.1 q.2 s
    obtain ⟨t, hrest⟩ := ih u
    exact ⟨t, (applyAll_cons happly m).trans hrest⟩

end Sys2Proof.Machine
end

section
/-! PROOFS. The merged order of the two ports (R57): how turns make it, and what a run of the turns does. -/

namespace Sys2Proof.Machine

/-! ### Merging -/

@[simp] theorem wordsOf_nil (p : Port) : wordsOf p [] = [] := rfl

@[simp] theorem wordsOf_cons (p q : Port) (w : Word) (m : List (Port × Word)) :
    wordsOf p ((q, w) :: m) = if q = p then w :: wordsOf p m else wordsOf p m := by
  by_cases h : q = p <;> simp [wordsOf, h]

/-- A turn of a port with no word adds nothing. -/
theorem merged_of_waiting_nil {s : State} {p : Port} (hwait : s.waiting p = []) (ts : List Turn) :
    merged (.command p :: ts) s.ctrlIn s.periodIn = merged ts s.ctrlIn s.periodIn := by
  cases p with
  | ctrl =>
    rw [State.waiting_ctrl] at hwait
    simp only [hwait, merged]
  | period =>
    rw [State.waiting_period] at hwait
    simp only [hwait, merged]

/-- A turn of a port puts the oldest word waiting there next in the merged order. -/
theorem merged_of_waiting_cons {s : State} {p : Port} {w : Word} {ws : List Word} (hwait : s.waiting p = w :: ws)
    (ts : List Turn) :
    merged (.command p :: ts) s.ctrlIn s.periodIn =
      (p, w) :: merged ts (s.withWaiting p ws).ctrlIn (s.withWaiting p ws).periodIn := by
  cases p with
  | ctrl =>
    rw [State.waiting_ctrl] at hwait
    simp [hwait, merged]
  | period =>
    rw [State.waiting_period] at hwait
    simp [hwait, merged]

/-- Settles O52: a turn takes a port's oldest word or none. -/
theorem mergedOrderKeepsEachPortsOrder : Obligations.MergedOrderKeepsEachPortsOrder := by
  intro ts cs ps
  induction ts generalizing cs ps with
  | nil => exact ⟨⟨cs, rfl⟩, ⟨ps, rfl⟩⟩
  | cons t ts ih =>
    cases t with
    | assertReset => exact ih cs ps
    | releaseReset => exact ih cs ps
    | command p =>
      cases p with
      | ctrl =>
        cases cs with
        | nil => exact ih [] ps
        | cons w cs => simpa [merged] using ih cs ps
      | period =>
        cases ps with
        | nil => simpa only [merged] using ih cs []
        | cons w ps => simpa [merged] using ih cs ps

/-- Settles O53: give each word's port the turn when the word is next. -/
theorem everyInterleavingIsAMergedOrder : Obligations.EveryInterleavingIsAMergedOrder := by
  intro m
  induction m with
  | nil => rfl
  | cons q m ih =>
    obtain ⟨p, w⟩ := q
    cases p with
    | ctrl => simp [merged, ih]
    | period => simp [merged, ih]

/-! ### One turn of a port -/

theorem step_of_command {s : State} {p : Port} {ts : List Turn} (hts : s.turns = .command p :: ts) :
    step s = servePort p (s.withTurns ts) := by
  simp [step, advance, serveTurn, hts]

@[simp] theorem waiting_withTurns (s : State) (p : Port) (ts : List Turn) : (s.withTurns ts).waiting p = s.waiting p := by
  cases p <;> rfl

/-- The turn of a port with no word passes (log entry 2). -/
theorem step_of_waiting_nil {s : State} {p : Port} {ts : List Turn} (hts : s.turns = .command p :: ts)
    (hwait : s.waiting p = []) : step s = .next (s.withTurns ts) := by
  simp [step_of_command hts, servePort, hwait]

/-- With reset released, the turn of a port takes its oldest word and applies it. -/
theorem step_of_waiting_cons {s : State} {p : Port} {ts : List Turn} {w : Word} {ws : List Word}
    (hts : s.turns = .command p :: ts) (hwait : s.waiting p = w :: ws) (hlevel : s.inReset = false) :
    step s = applyWord p w ((s.withTurns ts).withWaiting p ws) := by
  simp [step_of_command hts, servePort, hwait, hlevel]

/-- Taking a turn and a word away changes only what is presented. -/
theorem withTurns_withWaiting_withPresented (s : State) (ts : List Turn) (p : Port) (ws : List Word) :
    ((s.withTurns ts).withWaiting p ws).withPresented s.turns s.ctrlIn s.periodIn = s := by
  cases p <;> rfl

/-- Settles O7: the word applied is the oldest of the port that has the turn, and a legal word runs its command. -/
theorem stepRunsTheDecodedCommand : Obligations.StepRunsTheDecodedCommand := by
  intro s p ts w ws i hts hwait hlevel hdec
  refine ⟨(s.withTurns ts).withWaiting p ws, ?_, by simp, by simp [waiting_withWaiting], fun q hq => ?_,
    withTurns_withWaiting_withPresented s ts p ws⟩
  · exact (step_of_waiting_cons hts hwait hlevel).trans (applyWord_of_legal hdec _)
  · simp [waiting_withWaiting, hq]

/-! ### A run of the turns -/

/-- What a run of all the turns of `s` leads to: no turn is left, each port's queue was its words in the merged order and
what still waits, and the merged order applied to `s` word by word gives the same state but for what is presented. -/
def RunsToMergedOrder (s t : State) : Prop :=
  core.run s.turns.length s = .next t ∧ t.turns = [] ∧
    (∀ p, s.waiting p = wordsOf p (merged s.turns s.ctrlIn s.periodIn) ++ t.waiting p) ∧
    applyAll (merged s.turns s.ctrlIn s.periodIn) s = .next (t.withPresented s.turns s.ctrlIn s.periodIn)

theorem runsToMergedOrder_of_turns_nil {s : State} (hts : s.turns = []) : RunsToMergedOrder s s := by
  have hmerged : merged s.turns s.ctrlIn s.periodIn = [] := by simp [hts, merged]
  exact ⟨by rw [hts]; exact core_run_zero s, hts, by simp [hmerged], by rw [hmerged]; rfl⟩

/-- A turn of an empty port adds a step that changes nothing but the turns. -/
theorem RunsToMergedOrder.of_waiting_nil {s t : State} {p : Port} {ts : List Turn} (hts : s.turns = .command p :: ts)
    (hwait : s.waiting p = []) (h : RunsToMergedOrder (s.withTurns ts) t) : RunsToMergedOrder s t := by
  obtain ⟨hrun, hdone, hqueues, happly⟩ := h
  have hmerged : merged s.turns s.ctrlIn s.periodIn = merged ts s.ctrlIn s.periodIn := by
    rw [hts, merged_of_waiting_nil hwait]
  refine ⟨?_, hdone, ?_, ?_⟩
  · rw [hts]
    exact (core_run_succ _ s _ (step_of_waiting_nil hts hwait)).trans hrun
  · simpa [hmerged] using hqueues
  · rw [hmerged]
    exact applyAll_withPresented happly s.turns s.ctrlIn s.periodIn

/-- A turn of a port with a word applies that word: `u` is the state after it. -/
theorem RunsToMergedOrder.of_waiting_cons {s u t : State} {p : Port} {ts : List Turn} {w : Word} {ws : List Word}
    (hts : s.turns = .command p :: ts) (hwait : s.waiting p = w :: ws) (hlevel : s.inReset = false)
    (heff : WordEffect p w ((s.withTurns ts).withWaiting p ws) u) (h : RunsToMergedOrder u t) :
    RunsToMergedOrder s t := by
  obtain ⟨hrun, hdone, hqueues, happly⟩ := h
  obtain ⟨-, hctrl, hperiod, hturns⟩ := heff.outside_frame
  have hturns : u.turns = ts := by simpa using hturns
  have hmerged : merged s.turns s.ctrlIn s.periodIn = (p, w) :: merged u.turns u.ctrlIn u.periodIn := by
    rw [hts, merged_of_waiting_cons hwait, hturns, hctrl, hperiod]
    cases p <;> rfl
  have hword : applyWord p w s = .next (u.withPresented s.turns s.ctrlIn s.periodIn) := by
    rw [applyWord_eq_next_iff]
    simpa only [withTurns_withWaiting_withPresented] using heff.withPresented s.turns s.ctrlIn s.periodIn
  refine ⟨?_, hdone, fun q => ?_, ?_⟩
  · have hstep : step s = .next u :=
      (step_of_waiting_cons hts hwait hlevel).trans ((applyWord_eq_next_iff ..).mpr heff)
    rw [hturns] at hrun
    rw [hts]
    exact (core_run_succ _ s u hstep).trans hrun
  · have hrest : u.waiting q = if q = p then ws else s.waiting q := by
      simpa [waiting_withWaiting] using heff.waiting_eq q
    rw [hqueues q] at hrest
    by_cases hq : q = p
    · subst hq
      simp [hmerged, hwait, hrest]
    · simp [hmerged, Ne.symm hq, hrest, hq]
  · rw [hmerged, applyAll_cons hword]
    exact applyAll_withPresented happly s.turns s.ctrlIn s.periodIn

theorem exists_runsToMergedOrder (ts : List Turn) (s : State) (hts : s.turns = ts) (hlevel : s.inReset = false)
    (hcommands : ∀ t ∈ ts, ∃ p, t = .command p) : ∃ t, RunsToMergedOrder s t := by
  induction ts generalizing s with
  | nil => exact ⟨s, runsToMergedOrder_of_turns_nil hts⟩
  | cons turn ts ih =>
    obtain ⟨⟨p, rfl⟩, hrest⟩ := List.forall_mem_cons.mp hcommands
    cases hwait : s.waiting p with
    | nil =>
      obtain ⟨t, ht⟩ := ih (s.withTurns ts) rfl hlevel hrest
      exact ⟨t, ht.of_waiting_nil hts hwait⟩
    | cons w ws =>
      obtain ⟨u, -, heff⟩ := applyWord_effect p w ((s.withTurns ts).withWaiting p ws)
      obtain ⟨hlevel', -, -, hturns⟩ := heff.outside_frame
      obtain ⟨t, ht⟩ := ih u (by simpa using hturns) (by simpa [hlevel] using hlevel') hrest
      exact ⟨t, ht.of_waiting_cons hts hwait hlevel heff⟩

/-- Settles O51, by induction on the turns: each one passes or applies the next word of the merged order. -/
theorem runAppliesTheMergedOrder : Obligations.RunAppliesTheMergedOrder := fun s hlevel hcommands =>
  exists_runsToMergedOrder s.turns s rfl hlevel hcommands

end Sys2Proof.Machine
end

section
/-! PROOFS. Parameter registers along the merged order: the last write counts (R58), and none comes from PERIOD (R59). -/

namespace Sys2Proof.Machine

/-! ### The last write -/

/-- The value of a parameter that stores `clamp` of its last written operand, if there is one, and was `old` before. -/
def storedOr (clamp : Nat → Nat) (old : Nat) : Option Nat → Nat
  | some v => clamp v
  | none => old

/-- The operand a word writes to the parameter that `pick` reads, if it is legal on its port and writes it. -/
def writtenBy (pick : Instr → Option Nat) (q : Port × Word) : Option Nat :=
  match decode q.1 q.2 with
  | .legal i => pick i
  | .illegal _ => none

theorem lastWrite_cons (pick : Instr → Option Nat) (q : Port × Word) (m : List (Port × Word)) :
    lastWrite pick (q :: m) = (lastWrite pick m).or (writtenBy pick q) := by
  simp only [lastWrite, List.reverse_cons, List.findSome?_append, List.findSome?_singleton]
  rfl

theorem storedOr_or (clamp : Nat → Nat) (old : Nat) (later earlier : Option Nat) :
    storedOr clamp old (later.or earlier) = storedOr clamp (storedOr clamp old earlier) later := by
  cases later <;> rfl

/-- The parameter `value` is written by the commands `pick` reads, which store `clamp` of their operand, and by nothing
else that a word can do. -/
structure StoresOperand (pick : Instr → Option Nat) (clamp : Nat → Nat) (value : State → Nat) : Prop where
  command : ∀ s i t, CommandEffect s i t → value t = storedOr clamp (value s) (pick i)
  illegal : ∀ s c, value (raiseIllegal c s) = value s

theorem StoresOperand.word {pick : Instr → Option Nat} {clamp : Nat → Nat} {value : State → Nat}
    (h : StoresOperand pick clamp value) {p : Port} {w : Word} {s t : State} (heff : WordEffect p w s t) :
    value t = storedOr clamp (value s) (writtenBy pick (p, w)) := by
  cases heff with
  | command hdec hcmd => simpa [writtenBy, hdec] using h.command _ _ _ hcmd
  | illegal hdec => simpa [writtenBy, hdec, storedOr] using h.illegal s _

/-- After any merged order a parameter holds its last write, or the earlier value. -/
theorem StoresOperand.applyAll {pick : Instr → Option Nat} {clamp : Nat → Nat} {value : State → Nat}
    (h : StoresOperand pick clamp value) {m : List (Port × Word)} {s t : State} (hall : applyAll m s = .next t) :
    value t = storedOr clamp (value s) (lastWrite pick m) := by
  induction m generalizing s with
  | nil => cases hall; rfl
  | cons q m ih =>
    obtain ⟨u, happly, heff⟩ := applyWord_effect q.1 q.2 s
    rw [applyAll_cons happly] at hall
    rw [ih hall, h.word heff, lastWrite_cons, storedOr_or]

theorem storesOperand_mix : StoresOperand mixOperand (min · 0x8000) (·.mix.toNat) where
  command s i t heff := by
    cases heff with
    | wrpMix imm => exact clampMix_toNat _
    | rdp r => cases r <;> rfl
    | proc => rw [procState_eq]; rfl
    | _ => rfl
  illegal _ _ := rfl

theorem storesOperand_noise : StoresOperand noiseOperand (min · 60) (·.noise.toNat) where
  command s i t heff := by
    cases heff with
    | wrpNoise imm => exact clampNoise_toNat _
    | rdp r => cases r <;> rfl
    | proc => rw [procState_eq]; rfl
    | _ => rfl
  illegal _ _ := rfl

theorem storesOperand_density : StoresOperand densityOperand (min · 100) (·.density.toNat) where
  command s i t heff := by
    cases heff with
    | wrpDensity imm => exact clampDensity_toNat _
    | rdp r => cases r <;> rfl
    | proc => rw [procState_eq]; rfl
    | _ => rfl
  illegal _ _ := rfl

/-- The PROC word takes the parameters as they stand into the snapshot (R152). -/
theorem applyAll_proc_snapshot (s : State) :
    ∃ t, applyAll [(.period, 0x30000000#32)] s = .next t ∧ t.snapshot = ⟨s.mix, s.noise, s.density⟩ := by
  have hdec : decode .period 0x30000000#32 = .legal .proc := by decide
  refine ⟨procState s, applyAll_cons (applyWord_of_legal hdec s) [], ?_⟩
  rw [procState_eq]

/-- Settles O19: the words before the PROC leave each register at its last write, and the PROC loads the registers. -/
theorem procUsesTheLastWritesBeforeIt : Obligations.ProcUsesTheLastWritesBeforeIt := by
  intro m s
  obtain ⟨u, hu⟩ := applyAll_completes m s
  obtain ⟨t, ht, hsnap⟩ := applyAll_proc_snapshot u
  refine ⟨t, (applyAll_append hu _).trans ht, ?_⟩
  rw [hsnap]
  exact ⟨storesOperand_mix.applyAll hu, storesOperand_noise.applyAll hu, storesOperand_density.applyAll hu⟩

/-! ### The PERIOD port -/

/-- A step that serves PERIOD moves no parameter register. -/
theorem step_period_readReg_eq {s : State} {ts : List Turn} (hts : s.turns = .command .period :: ts) :
    ∃ t, step s = .next t ∧ ∀ r, isParam r = true → readReg r t = readReg r s := by
  obtain ⟨t, hstep, hmoves⟩ := step_moves_param s
  refine ⟨t, hstep, fun r hr => ?_⟩
  by_contra hne
  obtain ⟨ts', hreset⟩ | ⟨ts', w, ws, i, hctrl, -⟩ := hmoves r hr hne
  · simp [hts] at hreset
  · simp [hts] at hctrl

/-- The first four bits of a word are its OP field (R72). -/
theorem opField_append (op : BitVec 4) (v : BitVec 28) : opField (op ++ v) = op :=
  BitVec.extractLsb'_append_eq_left

/-- A WRP word is on the wrong port at PERIOD, whatever its other bits (R78). -/
theorem decode_period_wrp (v : BitVec 28) : decode .period (0x1#4 ++ v) = .illegal .wrongPort := by
  have hop : Op.ofField (opField (0x1#4 ++ v)) = some .wrp := by rw [opField_append]; rfl
  simp [decode, hop, accepts]

/-- Settles O44: a step of PERIOD leaves what every parameter register reads as, so the register itself. -/
theorem periodPortWritesNoParameter : Obligations.PeriodPortWritesNoParameter := by
  refine ⟨fun s ts hts => ?_, decode_period_wrp⟩
  obtain ⟨t, hstep, hkept⟩ := step_period_readReg_eq hts
  exact ⟨t, hstep, hkept .mix rfl, pad16_injective (by decide) (hkept .noise rfl),
    pad16_injective (by decide) (hkept .density rfl), pad16_injective (by decide) (hkept .feedback rfl),
    pad16_injective (by decide) (hkept .delay rfl)⟩

end Sys2Proof.Machine
end

section
/-! PROOFS. The fields of a command and its word, and the checks of the decoder one by one (R70 to R78). -/

namespace Sys2Proof

/-! ### The fields of a command -/

/-- The operation of a command (R72, R77). -/
def Instr.op : Instr → Op
  | .nop => .nop
  | .wrpMix _ | .wrpNoise _ | .wrpDensity _ | .wrpFeedback _ | .wrpDelay _ => .wrp
  | .rdpMix | .rdpNoise | .rdpDensity | .rdpFeedback | .rdpDelay | .rdpStatus | .rdpId => .rdp
  | .proc => .proc

/-- What a command's REG field names; NOP and PROC have it zero, as MIX has (R76, R77). -/
def Instr.reg : Instr → Reg
  | .nop | .proc | .wrpMix _ | .rdpMix => .mix
  | .wrpNoise _ | .rdpNoise => .noise
  | .wrpDensity _ | .rdpDensity => .density
  | .wrpFeedback _ | .rdpFeedback => .feedback
  | .wrpDelay _ | .rdpDelay => .delay
  | .rdpStatus => .status
  | .rdpId => .id

/-- The IMM field of a command: a WRP's operand, else zero (R75, R77). -/
def Instr.imm : Instr → Half
  | .wrpMix imm | .wrpNoise imm | .wrpDensity imm | .wrpFeedback imm | .wrpDelay imm => imm
  | _ => 0#16

/-- The word of a command is packed from its three fields. -/
theorem encode_eq_packWord (i : Instr) : encode i = packWord (opIndex i.op) (regIndex i.reg) i.imm := by
  cases i <;> rfl

/-- A command's row names exactly the ports that accept its operation (R71, R77). -/
theorem accepts_op (p : Port) (i : Instr) : accepts p i.op = wellFormed p i := by
  cases i <;> cases p <;> rfl

@[simp] theorem Op.ofField_opIndex (op : Op) : Op.ofField (opIndex op) = some op := by
  cases op <;> rfl

@[simp] theorem Reg.ofField_regIndex (r : Reg) : Reg.ofField (regIndex r) = some r := by
  cases r <;> rfl

/-! ### The checks of R78 -/

theorem decode_of_reservedOp {w : Word} (p : Port) (hop : Op.ofField (opField w) = none) :
    decode p w = .illegal .reservedOp := by
  simp [decode, hop]

/-- A WRP with RSV zero is legal or not by its REG alone. -/
theorem decode_eq_decodeWrp {p : Port} {w : Word} (hop : Op.ofField (opField w) = some .wrp)
    (hport : accepts p .wrp = true) (hrsv : rsvField w = 0#8) :
    decode p w = decodeWrp (immField w) (Reg.ofField (regField w)) := by
  simp [decode, hop, hport, hrsv]

/-- An RDP with RSV and IMM zero is legal or not by its REG alone. -/
theorem decode_eq_decodeRdp {p : Port} {w : Word} (hop : Op.ofField (opField w) = some .rdp)
    (hport : accepts p .rdp = true) (hrsv : rsvField w = 0#8) (himm : immField w = 0#16) :
    decode p w = decodeRdp (Reg.ofField (regField w)) := by
  simp [decode, hop, hport, hrsv, himm]

section
variable {p : Port} {w : Word} {op : Op} (hop : Op.ofField (opField w) = some op)
include hop

theorem decode_of_wrongPort (hport : accepts p op = false) : decode p w = .illegal .wrongPort := by
  simp [decode, hop, hport]

theorem decode_of_rsvField_ne_zero (hport : accepts p op = true) (hrsv : rsvField w ≠ 0#8) :
    decode p w = .illegal .reservedField := by
  simp [decode, hop, hport, hrsv]

theorem decode_of_regField_ne_zero (hport : accepts p op = true) (hunused : op = .nop ∨ op = .proc)
    (hreg : regField w ≠ 0#4) : decode p w = .illegal .reservedField := by
  simp [decode, hop, hport, hunused, hreg]

theorem decode_of_immField_ne_zero (hport : accepts p op = true) (hunused : op ≠ .wrp) (himm : immField w ≠ 0#16) :
    decode p w = .illegal .reservedField := by
  simp [decode, hop, hport, hunused, himm]

theorem decode_of_reservedReg (huses : op = .wrp ∨ op = .rdp) (hport : accepts p op = true) (hrsv : rsvField w = 0#8)
    (himm : op ≠ .wrp → immField w = 0#16) (hreg : Reg.ofField (regField w) = none) :
    decode p w = .illegal .reservedReg := by
  obtain rfl | rfl := huses
  · rw [decode_eq_decodeWrp hop hport hrsv, hreg]
    rfl
  · rw [decode_eq_decodeRdp hop hport hrsv (himm (by decide)), hreg]
    rfl

end

/-- STATUS and ID have no WRP row (R76). -/
theorem decodeWrp_of_not_isParam {r : Reg} (hr : Machine.isParam r = false) (imm : Half) :
    decodeWrp imm (some r) = .illegal .readOnly := by
  cases r with
  | status | id => rfl
  | _ => cases hr

theorem decode_of_readOnly {p : Port} {w : Word} {r : Reg} (hop : Op.ofField (opField w) = some .wrp)
    (hport : accepts p .wrp = true) (hrsv : rsvField w = 0#8) (hreg : Reg.ofField (regField w) = some r)
    (hr : Machine.isParam r = false) : decode p w = .illegal .readOnly := by
  rw [decode_eq_decodeWrp hop hport hrsv, hreg, decodeWrp_of_not_isParam hr]

/-! ### The word of a command decodes to it -/

theorem decode_nopWord (p : Port) : decode p (encode .nop) = .legal .nop := by
  cases p <;> decide

theorem decode_procWord : decode .period (encode .proc) = .legal .proc := by
  decide

theorem decode_wrpWord {p : Port} (hport : accepts p .wrp = true) (r : Reg) (imm : Half) :
    decode p (packWord (opIndex .wrp) (regIndex r) imm) = decodeWrp imm (some r) := by
  simp [decode_packWord, hport]

theorem decodeRdp_some (r : Reg) : decodeRdp (some r) = .legal (Machine.rdpOf r) := by
  cases r <;> rfl

theorem decode_rdpWord {p : Port} (hport : accepts p .rdp = true) (r : Reg) :
    decode p (packWord (opIndex .rdp) (regIndex r) 0#16) = .legal (Machine.rdpOf r) := by
  simp [decode_packWord, hport, decodeRdp_some]

/-- The WRP row of a command's own register is the command's. -/
theorem decodeWrp_reg {i : Instr} (h : i.op = .wrp) : decodeWrp i.imm (some i.reg) = .legal i := by
  cases i with
  | wrpMix _ | wrpNoise _ | wrpDensity _ | wrpFeedback _ | wrpDelay _ => rfl
  | _ => cases h

theorem rdpOf_reg {i : Instr} (h : i.op = .rdp) : Machine.rdpOf i.reg = i ∧ i.imm = 0#16 := by
  cases i with
  | rdpMix | rdpNoise | rdpDensity | rdpFeedback | rdpDelay | rdpStatus | rdpId => exact ⟨rfl, rfl⟩
  | _ => cases h

theorem decode_encode_of_wellFormed {p : Port} {i : Instr} (hwf : wellFormed p i = true) :
    decode p (encode i) = .legal i := by
  rw [← accepts_op] at hwf
  cases hop : i.op with
  | nop =>
    cases i with
    | nop => exact decode_nopWord p
    | _ => cases hop
  | wrp =>
    rw [encode_eq_packWord, hop, decode_wrpWord (hop ▸ hwf), decodeWrp_reg hop]
  | rdp =>
    obtain ⟨hi, himm⟩ := rdpOf_reg hop
    rw [encode_eq_packWord, hop, himm, decode_rdpWord (hop ▸ hwf), hi]
  | proc =>
    cases i with
    | proc =>
      cases p with
      | ctrl => cases hwf
      | period => exact decode_procWord
    | _ => cases hop

/-- Settles O1: a port that the command's row does not name refuses the operation itself, whatever the other fields. -/
theorem encodedCommandDecodesOnItsPorts : Obligations.EncodedCommandDecodesOnItsPorts := by
  intro p i
  cases hwf : wellFormed p i with
  | true => exact decode_encode_of_wellFormed hwf
  | false =>
    have hop : Op.ofField (opField (encode i)) = some i.op := by simp [encode_eq_packWord]
    exact decode_of_wrongPort hop ((accepts_op p i).trans hwf)

/-- Settles O6: each word is the encoding, written as a number, of the command its row names. -/
theorem wordsOfTheTableDecode : Obligations.WordsOfTheTableDecode :=
  ⟨decode_encode_of_wellFormed (i := .nop) rfl,
    decode_encode_of_wellFormed (i := .nop) rfl,
    decode_encode_of_wellFormed (i := .wrpMix 0x9000#16) rfl,
    decode_encode_of_wellFormed (i := .wrpNoise 61#16) rfl,
    decode_encode_of_wellFormed (i := .wrpDensity 101#16) rfl,
    decode_encode_of_wellFormed (i := .wrpFeedback 0x8000#16) rfl,
    decode_encode_of_wellFormed (i := .wrpDelay 150#16) rfl,
    decode_encode_of_wellFormed (i := .rdpStatus) rfl,
    decode_encode_of_wellFormed (i := .rdpId) rfl,
    decode_encode_of_wellFormed (i := .proc) rfl⟩

/-! ### No bit of a legal word is dropped -/

/-- What the checks of R78 leave of a word's fields: `w` is a word of operation `op` that no check refuses on port `p`. -/
structure PassesChecks (p : Port) (w : Word) (op : Op) : Prop where
  selects : Op.ofField (opField w) = some op
  port : accepts p op = true
  rsv : rsvField w = 0#8
  unusedReg : op = .nop ∨ op = .proc → regField w = 0#4
  unusedImm : op ≠ .wrp → immField w = 0#16
  reg : op = .wrp ∨ op = .rdp → Reg.ofField (regField w) ≠ none
  writable : op = .wrp → ∀ r, Reg.ofField (regField w) = some r → Machine.isParam r = true

theorem passesChecks_of_not_illegal {p : Port} {w : Word} (hlegal : ∀ c, decode p w ≠ .illegal c) :
    ∃ op, PassesChecks p w op := by
  cases hop : Op.ofField (opField w) with
  | none => exact absurd (decode_of_reservedOp p hop) (hlegal _)
  | some op =>
    have hport : accepts p op = true :=
      (Bool.not_eq_false _).mp fun h => hlegal _ (decode_of_wrongPort hop h)
    have hrsv : rsvField w = 0#8 := by_contra fun h => hlegal _ (decode_of_rsvField_ne_zero hop hport h)
    have himm : op ≠ .wrp → immField w = 0#16 := fun hunused =>
      by_contra fun h => hlegal _ (decode_of_immField_ne_zero hop hport hunused h)
    refine ⟨op, hop, hport, hrsv, fun hunused => ?_, himm, fun huses h => ?_, ?_⟩
    · exact by_contra fun h => hlegal _ (decode_of_regField_ne_zero hop hport hunused h)
    · exact hlegal _ (decode_of_reservedReg hop huses hport hrsv himm h)
    · rintro rfl r hr
      exact (Bool.not_eq_false _).mp fun h => hlegal _ (decode_of_readOnly hop hport hrsv hr h)

theorem exists_wrp {r : Reg} (hr : Machine.isParam r = true) (imm : Half) :
    ∃ i : Instr, i.op = .wrp ∧ i.reg = r ∧ i.imm = imm := by
  cases r with
  | mix => exact ⟨.wrpMix imm, rfl, rfl, rfl⟩
  | noise => exact ⟨.wrpNoise imm, rfl, rfl, rfl⟩
  | density => exact ⟨.wrpDensity imm, rfl, rfl, rfl⟩
  | feedback => exact ⟨.wrpFeedback imm, rfl, rfl, rfl⟩
  | delay => exact ⟨.wrpDelay imm, rfl, rfl, rfl⟩
  | status | id => cases hr

theorem rdpOf_fields (r : Reg) :
    (Machine.rdpOf r).op = .rdp ∧ (Machine.rdpOf r).reg = r ∧ (Machine.rdpOf r).imm = 0#16 := by
  cases r <;> exact ⟨rfl, rfl, rfl⟩

/-- The fields of a word that passes the checks are those of a command. -/
theorem PassesChecks.exists_fields {p : Port} {w : Word} {op : Op} (h : PassesChecks p w op) :
    ∃ i : Instr, i.op = op ∧ regIndex i.reg = regField w ∧ i.imm = immField w := by
  cases op with
  | nop => exact ⟨.nop, rfl, (h.unusedReg (.inl rfl)).symm, (h.unusedImm (by decide)).symm⟩
  | proc => exact ⟨.proc, rfl, (h.unusedReg (.inr rfl)).symm, (h.unusedImm (by decide)).symm⟩
  | wrp =>
    obtain ⟨r, hr⟩ := Option.ne_none_iff_exists'.mp (h.reg (.inl rfl))
    obtain ⟨i, hi, rfl, himm⟩ := exists_wrp (h.writable rfl r hr) (immField w)
    exact ⟨i, hi, (Reg.ofField_eq_some _ _ hr).symm, himm⟩
  | rdp =>
    obtain ⟨r, hr⟩ := Option.ne_none_iff_exists'.mp (h.reg (.inr rfl))
    obtain ⟨hi, hreg, himm⟩ := rdpOf_fields r
    exact ⟨_, hi, by rw [hreg, Reg.ofField_eq_some _ _ hr], himm.trans (h.unusedImm (by decide)).symm⟩

/-- A word that passes the checks is the word of a command whose row names the port. -/
theorem PassesChecks.exists_encode {p : Port} {w : Word} {op : Op} (h : PassesChecks p w op) :
    ∃ i, encode i = w ∧ wellFormed p i = true := by
  obtain ⟨i, rfl, hreg, himm⟩ := h.exists_fields
  refine ⟨i, ?_, (accepts_op p i).symm.trans h.port⟩
  rw [encode_eq_packWord, ← Op.ofField_eq_some _ _ h.selects, hreg, himm, packWord_of_fields w h.rsv]

/-- The legal words of a port are the words of the commands whose rows name it. -/
theorem decode_eq_legal_iff (p : Port) (w : Word) (i : Instr) :
    decode p w = .legal i ↔ encode i = w ∧ wellFormed p i = true := by
  constructor
  · intro hdec
    obtain ⟨op, hpass⟩ := passesChecks_of_not_illegal (p := p) (w := w) (by simp [hdec])
    obtain ⟨j, rfl, hwf⟩ := hpass.exists_encode
    cases (decode_encode_of_wellFormed hwf).symm.trans hdec
    exact ⟨rfl, hwf⟩
  · rintro ⟨rfl, hwf⟩
    exact decode_encode_of_wellFormed hwf

/-- A word that passes the checks is legal, and the word of the command it decodes to. -/
theorem PassesChecks.exists_decode {p : Port} {w : Word} {op : Op} (h : PassesChecks p w op) :
    ∃ i, decode p w = .legal i ∧ encode i = w := by
  obtain ⟨i, hw, hwf⟩ := h.exists_encode
  exact ⟨i, (decode_eq_legal_iff p w i).mpr ⟨hw, hwf⟩, hw⟩

/-- Settles O2: a legal word passed every check, so its fields are those of a command, and by O1 it is the one decoded. -/
theorem legalWordIsTheEncodingOfItsCommand : Obligations.LegalWordIsTheEncodingOfItsCommand :=
  fun p w i => (decode_eq_legal_iff p w i).mp

end Sys2Proof
end

section
/-! PROOFS. The checks of the decoder in their order, on the word's quotients and remainders (R78). -/

namespace Sys2Proof

/-- The four field values that make a word's number are its fields. -/
theorem fields_toNat_eq {w : Word} {op reg rsv imm : Nat}
    (hw : w.toNat = op * 2 ^ 28 + reg * 2 ^ 24 + rsv * 2 ^ 16 + imm) (hreg : reg < 16) (hrsv : rsv < 256)
    (himm : imm < 65536) :
    (opField w).toNat = op ∧ (regField w).toNat = reg ∧ (rsvField w).toNat = rsv ∧ (immField w).toNat = imm := by
  obtain ⟨hfop, hfreg, hfrsv, hfimm⟩ := fields_toNat w
  omega

/-- The table of R71 by OP values: which operations a port refuses. -/
theorem accepts_eq_false_iff (p : Port) (op : Op) :
    accepts p op = false ↔
      (p = .period ∧ ((opIndex op).toNat = 1 ∨ (opIndex op).toNat = 2)) ∨ (p = .ctrl ∧ (opIndex op).toNat = 3) := by
  cases p <;> cases op <;> decide

theorem unusedReg_iff (op : Op) : (op = .nop ∨ op = .proc) ↔ (opIndex op).toNat = 0 ∨ (opIndex op).toNat = 3 := by
  cases op <;> decide

theorem unusedImm_iff (op : Op) :
    op ≠ .wrp ↔ (opIndex op).toNat = 0 ∨ (opIndex op).toNat = 2 ∨ (opIndex op).toNat = 3 := by
  cases op <;> decide

theorem usesReg_iff (op : Op) : (op = .wrp ∨ op = .rdp) ↔ (opIndex op).toNat = 1 ∨ (opIndex op).toNat = 2 := by
  cases op <;> decide

theorem isWrp_iff (op : Op) : op = .wrp ↔ (opIndex op).toNat = 1 := by
  cases op <;> decide

/-- The read-only registers by REG values (R76). -/
theorem selects_readOnly_iff (v : BitVec 4) :
    (∃ r, Reg.ofField v = some r ∧ Machine.isParam r = false) ↔ v.toNat = 5 ∨ v.toNat = 6 := by
  constructor
  · rintro ⟨r, hr, hro⟩
    rw [Reg.ofField_eq_some v r hr]
    cases r with
    | status => exact .inl rfl
    | id => exact .inr rfl
    | _ => cases hro
  · rintro (h | h)
    · exact ⟨.status, by simp only [Reg.ofField, h], rfl⟩
    · exact ⟨.id, by simp only [Reg.ofField, h], rfl⟩

theorem ne_zero_iff_toNat {n : Nat} (v : BitVec n) : v ≠ 0#n ↔ v.toNat ≠ 0 := by
  simp [BitVec.toNat_eq]

/-- Settles O4: each branch of the rule is one check of the decoder, and a word that none refuses passes the checks. -/
theorem decodeChecksInOrder : Obligations.DecodeChecksInOrder := by
  intro p w op reg rsv imm hw hreg hrsv himm
  obtain ⟨rfl, rfl, rfl, rfl⟩ := fields_toNat_eq hw hreg hrsv himm
  clear hw hreg hrsv himm
  cases hop : Op.ofField (opField w) with
  | none =>
    rw [if_pos ((Op.ofField_eq_none _).mp hop)]
    exact decode_of_reservedOp p hop
  | some o =>
    have hlt : ¬ 4 ≤ (opField w).toNat := by simp [← Op.ofField_eq_none, hop]
    rw [if_neg hlt, Op.ofField_eq_some _ _ hop]
    split_ifs with hport hrsv hreg himm hres hro
    · exact decode_of_wrongPort hop ((accepts_eq_false_iff p o).mpr hport)
    all_goals rw [← accepts_eq_false_iff, Bool.not_eq_false] at hport
    · exact decode_of_rsvField_ne_zero hop hport ((ne_zero_iff_toNat _).mpr hrsv)
    · exact decode_of_regField_ne_zero hop hport ((unusedReg_iff o).mpr hreg.1) ((ne_zero_iff_toNat _).mpr hreg.2)
    · exact decode_of_immField_ne_zero hop hport ((unusedImm_iff o).mpr himm.1) ((ne_zero_iff_toNat _).mpr himm.2)
    all_goals
      rw [← ne_zero_iff_toNat, not_not] at hrsv
      rw [← unusedReg_iff, ← ne_zero_iff_toNat, not_and, not_not] at hreg
      rw [← unusedImm_iff, ← ne_zero_iff_toNat, not_and, not_not] at himm
      rw [← usesReg_iff, ← Reg.ofField_eq_none] at hres
    · exact decode_of_reservedReg hop hres.1 hport hrsv himm hres.2
    all_goals rw [← isWrp_iff, ← selects_readOnly_iff] at hro
    · obtain ⟨rfl, r, hr, hparam⟩ := hro
      exact decode_of_readOnly hop hport hrsv hr hparam
    · have hpass : PassesChecks p w o :=
        { selects := hop, port := hport, rsv := hrsv, unusedReg := hreg, unusedImm := himm
          reg := not_and.mp hres
          writable := fun hwrp r hr => (Bool.not_eq_false _).mp fun h => hro ⟨hwrp, r, hr, h⟩ }
      obtain ⟨i, hdec, hw⟩ := hpass.exists_decode
      exact ⟨i, hdec, congrArg _ hw⟩

end Sys2Proof
end

section
/-! PROOFS. The opcode map as masks and patterns (R77): which words a row matches, and that the map is the decoder's. -/

namespace Sys2Proof

/-- The row of a command in the opcode map, from its ports and fields. `opcodeTable_eq` ties it to `opcodeTable`. -/
def Instr.row (i : Instr) : Row where
  mnemonic := i.mnemonic
  ports := [.ctrl, .period].filter (wellFormed · i)
  pattern := packWord (opIndex i.op) (regIndex i.reg) 0#16
  mask := if i.op = .wrp then 0xFFFF0000#32 else 0xFFFFFFFF#32

/-- The command with another operand; only a WRP has one. -/
def Instr.withImm (imm : Half) : Instr → Instr
  | .wrpMix _ => .wrpMix imm
  | .wrpNoise _ => .wrpNoise imm
  | .wrpDensity _ => .wrpDensity imm
  | .wrpFeedback _ => .wrpFeedback imm
  | .wrpDelay _ => .wrpDelay imm
  | i => i

/-- One command for each row, in the order of the map. -/
def tableCommands : List Instr :=
  [.nop, .wrpMix 0#16, .wrpNoise 0#16, .wrpDensity 0#16, .wrpFeedback 0#16, .wrpDelay 0#16, .rdpMix, .rdpNoise, .rdpDensity,
    .rdpFeedback, .rdpDelay, .rdpStatus, .rdpId, .proc]

theorem opcodeTable_eq : opcodeTable = tableCommands.map Instr.row := by decide

@[simp] theorem row_withImm (i : Instr) (imm : Half) : (i.withImm imm).row = i.row := by
  cases i <;> rfl

theorem withImm_zero_mem_tableCommands (i : Instr) : i.withImm 0#16 ∈ tableCommands := by
  cases i <;> simp [Instr.withImm, tableCommands]

/-- The rows of the map are the rows of the commands. -/
theorem mem_opcodeTable_iff (r : Row) : r ∈ opcodeTable ↔ ∃ i : Instr, i.row = r := by
  rw [opcodeTable_eq, List.mem_map]
  constructor
  · rintro ⟨i, -, hi⟩
    exact ⟨i, hi⟩
  · rintro ⟨i, rfl⟩
    exact ⟨_, withImm_zero_mem_tableCommands i, row_withImm i _⟩

theorem mem_row_ports_iff (p : Port) (i : Instr) : p ∈ i.row.ports ↔ wellFormed p i = true := by
  cases p <;> simp [Instr.row]

/-! ### The words a row matches -/

/-- The mask of the WRP rows keeps OP, REG and RSV and clears IMM. -/
theorem fields_and_wrpMask (w : Word) :
    opField (w &&& 0xFFFF0000#32) = opField w ∧ regField (w &&& 0xFFFF0000#32) = regField w ∧
      rsvField (w &&& 0xFFFF0000#32) = rsvField w ∧ immField (w &&& 0xFFFF0000#32) = 0#16 := by
  refine ⟨?_, ?_, ?_, ?_⟩
  · exact BitVec.extractLsb'_and.trans BitVec.and_allOnes
  · exact BitVec.extractLsb'_and.trans BitVec.and_allOnes
  · exact BitVec.extractLsb'_and.trans BitVec.and_allOnes
  · exact BitVec.extractLsb'_and.trans BitVec.and_zero

/-- A WRP row matches the words with its OP and REG and with RSV zero, whatever their IMM. -/
theorem and_wrpMask_eq_iff (op reg : BitVec 4) (w : Word) :
    w &&& 0xFFFF0000#32 = packWord op reg 0#16 ↔ packWord op reg (immField w) = w := by
  obtain ⟨hop, hreg, hrsv, himm⟩ := fields_and_wrpMask w
  constructor
  · intro h
    rw [h, opField_packWord] at hop
    rw [h, regField_packWord] at hreg
    rw [h, rsvField_packWord] at hrsv
    rw [hop, hreg, packWord_of_fields w hrsv.symm]
  · intro h
    have hrsv' : rsvField w = 0#8 := by rw [← h, rsvField_packWord]
    have hop' : opField w = op := by rw [← h, opField_packWord]
    have hreg' : regField w = reg := by rw [← h, regField_packWord]
    rw [← packWord_of_fields _ (hrsv.trans hrsv'), hop, hreg, himm, hop', hreg']

theorem encode_withImm {i : Instr} (h : i.op = .wrp) (imm : Half) :
    encode (i.withImm imm) = packWord (opIndex i.op) (regIndex i.reg) imm := by
  cases i with
  | wrpMix _ | wrpNoise _ | wrpDensity _ | wrpFeedback _ | wrpDelay _ => rfl
  | _ => cases h

theorem imm_eq_zero {i : Instr} (h : i.op ≠ .wrp) : i.imm = 0#16 := by
  cases i with
  | wrpMix _ | wrpNoise _ | wrpDensity _ | wrpFeedback _ | wrpDelay _ => exact absurd rfl h
  | _ => rfl

/-- The word of a command matches the command's row. -/
theorem encode_and_mask (i : Instr) : encode i &&& i.row.mask = i.row.pattern := by
  by_cases h : i.op = .wrp
  · simp only [Instr.row, h, if_true]
    rw [and_wrpMask_eq_iff, encode_eq_packWord, immField_packWord, h]
  · simp only [Instr.row, h, if_false]
    rw [encode_eq_packWord, imm_eq_zero h]
    exact BitVec.and_allOnes

/-- A word that matches a command's row is the word of a command of that row. -/
theorem exists_encode_of_and_mask {i : Instr} {w : Word} (hmatch : w &&& i.row.mask = i.row.pattern) :
    ∃ j : Instr, j.row = i.row ∧ encode j = w := by
  by_cases h : i.op = .wrp
  · simp only [Instr.row, h, if_true, and_wrpMask_eq_iff] at hmatch
    exact ⟨i.withImm (immField w), row_withImm i _, by rw [encode_withImm h, h, hmatch]⟩
  · simp only [Instr.row, h, if_false] at hmatch
    exact ⟨i, rfl, by rw [encode_eq_packWord, imm_eq_zero h, ← hmatch]; exact BitVec.and_allOnes⟩

/-- A row that names a port and matches a word there is the row of the command decoded. -/
theorem exists_decode_of_row {p : Port} {w : Word} {r : Row} (hr : r ∈ opcodeTable) (hp : p ∈ r.ports)
    (hmatch : w &&& r.mask = r.pattern) : ∃ i : Instr, decode p w = .legal i ∧ i.row = r := by
  obtain ⟨i, rfl⟩ := (mem_opcodeTable_iff r).mp hr
  obtain ⟨j, hrow, hw⟩ := exists_encode_of_and_mask hmatch
  rw [← hrow, mem_row_ports_iff] at hp
  exact ⟨j, (decode_eq_legal_iff p w j).mpr ⟨hw, hp⟩, hrow⟩

/-- The row of the command decoded is in the map, names the port and matches the word. -/
theorem row_of_decode {p : Port} {w : Word} {i : Instr} (hdec : decode p w = .legal i) :
    i.row ∈ opcodeTable ∧ p ∈ i.row.ports ∧ w &&& i.row.mask = i.row.pattern := by
  obtain ⟨rfl, hwf⟩ := (decode_eq_legal_iff p w i).mp hdec
  exact ⟨(mem_opcodeTable_iff _).mpr ⟨i, rfl⟩, (mem_row_ports_iff p i).mpr hwf, encode_and_mask i⟩

/-- Settles O3: rows that match on a port are rows of the one command decoded there. -/
theorem wordIsLegalExactlyWhenATableRowMatches : Obligations.WordIsLegalExactlyWhenATableRowMatches := by
  refine ⟨fun p w => ⟨?_, ?_⟩, fun p w i hdec => ?_, fun p w r hr r' hr' hp hmatch hp' hmatch' => ?_⟩
  · rintro ⟨i, hdec⟩
    exact ⟨i.row, row_of_decode hdec⟩
  · rintro ⟨r, hr, hp, hmatch⟩
    obtain ⟨i, hdec, -⟩ := exists_decode_of_row hr hp hmatch
    exact ⟨i, hdec⟩
  · obtain ⟨hr, hmatch⟩ := row_of_decode hdec
    exact ⟨i.row, hr, rfl, hmatch⟩
  · obtain ⟨i, hdec, rfl⟩ := exists_decode_of_row hr hp hmatch
    obtain ⟨j, hdec', rfl⟩ := exists_decode_of_row hr' hp' hmatch'
    cases hdec.symm.trans hdec'
    rfl

end Sys2Proof
end

section
/-! PROOFS. Table words: the bytes they are laid out in, the port they are presented on, and the step that runs them. -/

namespace Sys2Proof

/-- The four bytes of a word read back as the word (R53). -/
theorem wordOfBytes_wordBytes (w : Word) : wordOfBytes (wordBytes w) = some w := by
  simp only [wordOfBytes, wordBytes, Option.some.injEq]
  rw [BitVec.extractLsb'_append_extractLsb'_eq_extractLsb' (by decide : 24 = 16 + 8),
    BitVec.extractLsb'_append_extractLsb'_eq_extractLsb' (by decide : 16 = 8 + 8),
    BitVec.extractLsb'_append_extractLsb'_eq_extractLsb' (by decide : 8 = 0 + 8)]
  exact BitVec.extractLsb'_eq_self

theorem tableWord_toNat (w : Word) : tableWord 32 w.toNat = some w := by
  rw [tableWord, if_pos le_rfl, Nat.mod_eq_of_lt w.isLt, BitVec.ofNat_toNat, BitVec.setWidth_eq, wordOfBytes_wordBytes]

/-- Only PROC is not a command of CTRL, and it is one of PERIOD (R71). -/
theorem wellFormed_period_of_not_ctrl {i : Instr} (h : wellFormed .ctrl i = false) : wellFormed .period i = true := by
  cases i with
  | proc => rfl
  | _ => cases h

/-- The word of a command is presented on a port its row names. -/
theorem wellFormed_homePort_encode (i : Instr) : wellFormed (homePort (encode i)) i = true := by
  cases hctrl : wellFormed .ctrl i with
  | true => simpa [homePort, decode_encode_of_wellFormed hctrl] using hctrl
  | false =>
    have hperiod := wellFormed_period_of_not_ctrl hctrl
    have hillegal : decode .ctrl (encode i) = .illegal .wrongPort := by
      simpa [hctrl] using encodedCommandDecodesOnItsPorts .ctrl i
    simpa [homePort, hillegal, decode_encode_of_wellFormed hperiod] using hperiod

theorem decodeTableWord_encode (i : Instr) : decodeTableWord 32 (encode i).toNat = some i := by
  simp [decodeTableWord, tableWord_toNat, decode_encode_of_wellFormed (wellFormed_homePort_encode i)]

namespace Machine

/-- Taking a presented word and its turn away leaves the state as it was, with the reset input released. -/
theorem present_taken (p : Port) (w : Word) (s : State) :
    ((present p w s).withTurns s.turns).withWaiting p (s.waiting p) = { s with inReset := false } := by
  cases p <;> rfl

/-- A presented word is applied by the next step. -/
theorem step_present (p : Port) (w : Word) (s : State) :
    step (present p w s) = applyWord p w { s with inReset := false } := by
  obtain ⟨hturns, hwait, hlevel⟩ := present_spec p w s
  rw [step_of_waiting_cons hturns hwait hlevel, present_taken]

theorem withFetchWord_encode (s : State) (i : Instr) :
    s.withFetchWord 32 (encode i).toNat = present (homePort (encode i)) (encode i) s := by
  simp [State.withFetchWord, presentTableWord, tableWord_toNat]

/-- Settles O8: the word is presented on a port its row names, where it decodes to its command (O1). -/
theorem presentedTableWordRunsNext : Obligations.PresentedTableWordRunsNext := by
  intro s i
  have hwf := wellFormed_homePort_encode i
  refine ⟨_, hwf, decodeTableWord_encode i, ?_⟩
  rw [withFetchWord_encode, step_present, applyWord_of_legal (decode_encode_of_wellFormed hwf)]

end Machine
end Sys2Proof
end

section
/-! PROOFS. The assembler: the range of immediates (R82) and the effects of the pseudo-instructions (R83). -/

namespace Sys2Proof.Machine

/-! ### The assembler -/

/-- The number of a word from its OP, REG and IMM fields (R70). -/
theorem packWord_toNat (op reg : BitVec 4) (imm : Half) :
    (packWord op reg imm).toNat = op.toNat * 2 ^ 28 + reg.toNat * 2 ^ 24 + imm.toNat := by
  obtain ⟨hop, hreg, hrsv, himm⟩ := fields_toNat (packWord op reg imm)
  simp only [opField_packWord, regField_packWord, rsvField_packWord, immField_packWord, BitVec.toNat_zero]
    at hop hreg hrsv himm
  omega

theorem wrpTakes_eq_isParam (r : Reg) : wrpTakes r = isParam r := by
  cases r <;> rfl

/-- An immediate in range is its own 16-bit field. -/
theorem ofInt_toNat_of_range {imm : Int} (h0 : 0 ≤ imm) (h1 : imm ≤ 65535) :
    (BitVec.ofInt 16 imm).toNat = imm.toNat := by
  rw [BitVec.toNat_ofInt]
  omega

/-- The word of a WRP statement, as a number. -/
theorem wrpWord_toNat (r : Reg) {imm : Int} (h0 : 0 ≤ imm) (h1 : imm ≤ 65535) :
    (packWord 1#4 (regIndex r) (BitVec.ofInt 16 imm)).toNat = 1 * 2 ^ 28 + (regIndex r).toNat * 2 ^ 24 + imm.toNat := by
  rw [packWord_toNat, ofInt_toNat_of_range h0 h1]
  rfl

theorem assembleStmt_wrp_eq_some_iff (r : Reg) (imm : Int) (w : Word) :
    assembleStmt (.wrp r imm) = some w ↔
      isParam r = true ∧ 0 ≤ imm ∧ imm ≤ 65535 ∧ w.toNat = 1 * 2 ^ 28 + (regIndex r).toNat * 2 ^ 24 + imm.toNat := by
  rw [assembleStmt, wrpTakes_eq_isParam]
  split_ifs with h
  · obtain ⟨hr, h0, h1⟩ := h
    rw [← wrpWord_toNat r h0 h1, Option.some_inj, eq_comm, BitVec.toNat_eq]
    simp only [hr, h0, h1, true_and]
  · simp only [false_iff]
    rintro ⟨hr, h0, h1, -⟩
    exact h ⟨hr, h0, h1⟩

theorem assembleStmt_rdp (r : Reg) : assembleStmt (.rdp r) = some (encode (rdpOf r)) := by
  cases r <;> rfl

/-- Settles O55: the number of a word fixes the word, and the RDP, NOP and PROC words are the encoder's. -/
theorem assemblerAcceptsExactlyTheImmediateRange : Obligations.AssemblerAcceptsExactlyTheImmediateRange :=
  ⟨assembleStmt_wrp_eq_some_iff, assembleStmt_rdp, rfl, rfl⟩

/-! ### The pseudo-instructions -/

/-- At MIX = 0 a lane is the clean sample (R163). -/
theorem mixLane_zero (c x : Int) (h1 : -32768 ≤ c) (h2 : c ≤ 32767) : mixLane c x 0 = c := by
  rw [mixLane, floorDiv_unique _ _ c (by decide) (by omega) (by omega), clipSample_of_mem c h1 h2]

/-- At MIX = 1.0 a lane is the degraded dirty sample (R163). -/
theorem mixLane_one (c x : Int) (h1 : -32768 ≤ x) (h2 : x ≤ 32767) : mixLane c x 32768 = x := by
  rw [mixLane, floorDiv_unique _ _ x (by decide) (by omega) (by omega), clipSample_of_mem x h1 h2]

theorem mixBlock_of_mix_zero (snap : Snapshot) (hmix : snap.mix = 0#16) (clean dirty : Block) (draws : DrawBlock) :
    mixBlock snap clean dirty draws = clean := by
  ext i hi : 1
  have hlane := sext16_outLane snap clean dirty draws ⟨i, hi⟩
  obtain ⟨h1, h2⟩ := sext16_mem clean[i]
  rw [mixBlock_getElem]
  apply BitVec.eq_of_toInt_eq
  rw [hmix] at hlane
  exact hlane.trans (mixLane_zero _ _ h1 h2)

theorem mixBlock_of_mix_one (snap : Snapshot) (hmix : snap.mix = 0x8000#16) (clean dirty : Block) (draws : DrawBlock)
    (i : Nat) (hi : i < Config.N) :
    ((mixBlock snap clean dirty draws)[i]).toInt =
      degrade (dirty[i]).toInt snap.noise.toNat snap.density.toNat (draws[i]).d.val (draws[i]).u.toInt := by
  have hlane := sext16_outLane snap clean dirty draws ⟨i, hi⟩
  obtain ⟨h1, h2⟩ := sext16_mem dirty[i]
  obtain ⟨h3, h4⟩ := degrade_mem _ snap.noise.toNat snap.density.toNat (draws[i]).d.val (draws[i]).u.toInt h1 h2
  rw [mixBlock_getElem]
  rw [hmix] at hlane
  exact hlane.trans (mixLane_one _ _ h3 h4)

theorem degrade_of_density_zero (x noise u : Int) (d : Fin 100) : degrade x noise 0 d.val u = x :=
  if_pos (Int.natCast_nonneg _)

/-- An operand of FB_MAX or more stores FB_MAX (R175). -/
theorem clampFeedback_of_le {m : BitVec 15} {v : Nat} (h : m.toNat ≤ v) : clampFeedback m v = m :=
  BitVec.eq_of_toNat_eq ((clampFeedback_toNat m v).trans (min_eq_right h))

theorem clampFeedback_zero (m : BitVec 15) : clampFeedback m 0 = 0#15 :=
  BitVec.eq_of_toNat_eq ((clampFeedback_toNat m 0).trans (Nat.zero_min _))

/-- Settles O54: the effects are those of MIX = 0 and 1.0, DENSITY = 0, and FEEDBACK = 0 and at its clamp. -/
theorem pseudoInstructionsHaveTheirEffects : Obligations.PseudoInstructionsHaveTheirEffects := by
  refine ⟨rfl, rfl, rfl, rfl, rfl, fun s => ⟨?dry, ?wet, ?bypass, ?nofb, ?fbmax⟩⟩
  case dry => exact ⟨_, rfl, mixBlock_of_mix_zero _ rfl⟩
  case wet => exact ⟨_, rfl, mixBlock_of_mix_one _ rfl⟩
  case bypass => exact ⟨_, rfl, degrade_of_density_zero⟩
  case nofb => exact ⟨_, rfl, clampFeedback_zero s.fbMax⟩
  case fbmax =>
    have hle : s.fbMax.toNat ≤ 0xFFFF := by have := s.fbMax.isLt; omega
    exact ⟨_, rfl, clampFeedback_of_le hle⟩

end Sys2Proof.Machine
end

section
/-! PROOFS. The words of NOP, WRP and RDP written out, and every word of their rows that is refused (R101 to R112). -/

namespace Sys2Proof

/-! ### Words of a command's row -/

/-- The word of a command that PERIOD does not take is legal on CTRL and on the wrong port at PERIOD (R71, R78). -/
theorem decode_ctrlWord {i : Instr} (hwf : wellFormed .period i = false) :
    decode .ctrl (encode i) = .legal i ∧ decode .period (encode i) = .illegal .wrongPort := by
  have hctrl : wellFormed .ctrl i = true :=
    (Bool.not_eq_false _).mp fun h => absurd ((wellFormed_period_of_not_ctrl h).symm.trans hwf) (by decide)
  refine ⟨decode_encode_of_wellFormed hctrl, ?_⟩
  simpa [hwf] using encodedCommandDecodesOnItsPorts .period i

/-- A command other than a WRP has one word: any other word of its OP, and for an RDP of its REG, has a bit of a reserved
field set (R78). -/
theorem decode_of_ne_encode {p : Port} {w : Word} {i : Instr} (hop : opField w = opIndex i.op)
    (hport : accepts p i.op = true) (hwrp : i.op ≠ .wrp) (hreg : i.op = .rdp → regField w = regIndex i.reg)
    (hne : w ≠ encode i) : decode p w = .illegal .reservedField := by
  have hsel : Op.ofField (opField w) = some i.op := by rw [hop, Op.ofField_opIndex]
  by_cases hrsv : rsvField w = 0#8
  · by_cases himm : immField w = 0#16
    · have hreg' : regField w ≠ regIndex i.reg := fun h =>
        hne (by rw [encode_eq_packWord, imm_eq_zero hwrp, ← hop, ← h, ← himm, packWord_of_fields w hrsv])
      cases i with
      | nop => exact decode_of_regField_ne_zero hsel hport (.inl rfl) hreg'
      | proc => exact decode_of_regField_ne_zero hsel hport (.inr rfl) hreg'
      | wrpMix _ | wrpNoise _ | wrpDensity _ | wrpFeedback _ | wrpDelay _ => exact absurd rfl hwrp
      | rdpMix | rdpNoise | rdpDensity | rdpFeedback | rdpDelay | rdpStatus | rdpId => exact absurd (hreg rfl) hreg'
    · exact decode_of_immField_ne_zero hsel hport hwrp himm
  · exact decode_of_rsvField_ne_zero hsel hport hrsv

/-! ### NOP -/

/-- With OP = 0 only the word 0 is legal (R112). -/
theorem decode_op_zero_of_ne_zero (p : Port) {v : BitVec 28} (hv : v ≠ 0#28) :
    decode p (0#4 ++ v) = .illegal .reservedField := by
  have hne : 0#4 ++ v ≠ encode .nop := fun h => hv ((BitVec.append_right_inj 0#4).mp h)
  exact decode_of_ne_encode (i := .nop) (Machine.opField_append _ v) (by cases p <;> rfl) (by decide) nofun hne

/-! ### RDP -/

/-- The upper byte of a word holds its OP and REG fields (R72, R73). -/
theorem upperByte_fields (k : BitVec 8) (v : BitVec 24) :
    opField (k ++ v) = k.extractLsb' 4 4 ∧ regField (k ++ v) = k.extractLsb' 0 4 :=
  ⟨BitVec.extractLsb'_append_eq_of_le (by decide), BitVec.extractLsb'_append_eq_of_le (by decide)⟩

/-- Bits 31:24 of the RDP word of a register (R77). -/
def rdpByte (r : Reg) : BitVec 8 := opIndex .rdp ++ regIndex r

theorem rdpByte_fields (r : Reg) (v : BitVec 24) :
    opField (rdpByte r ++ v) = opIndex .rdp ∧ regField (rdpByte r ++ v) = regIndex r := by
  obtain ⟨hop, hreg⟩ := upperByte_fields (rdpByte r) v
  exact ⟨hop.trans BitVec.extractLsb'_append_eq_left, hreg.trans BitVec.extractLsb'_append_eq_right⟩

theorem encode_rdpOf (r : Reg) : encode (Machine.rdpOf r) = rdpByte r ++ 0#24 := by
  cases r <;> rfl

/-- Each RDP is one word, legal on CTRL alone; any other bit set below it is a reserved field (R105 to R111). -/
theorem decode_rdpByte (r : Reg) :
    decode .ctrl (rdpByte r ++ 0#24) = .legal (Machine.rdpOf r) ∧
      decode .period (rdpByte r ++ 0#24) = .illegal .wrongPort ∧
      ∀ v : BitVec 24, v ≠ 0#24 → decode .ctrl (rdpByte r ++ v) = .illegal .reservedField := by
  obtain ⟨hrdp, hreg, -⟩ := rdpOf_fields r
  obtain ⟨hctrl, hperiod⟩ := decode_ctrlWord (i := Machine.rdpOf r) (by rw [← accepts_op, hrdp]; rfl)
  rw [← encode_rdpOf]
  refine ⟨hctrl, hperiod, fun v hv => ?_⟩
  obtain ⟨hopf, hregf⟩ := rdpByte_fields r v
  refine decode_of_ne_encode (i := Machine.rdpOf r) (by rw [hopf, hrdp]) (by rw [hrdp]; rfl) (by rw [hrdp]; decide)
    (fun _ => by rw [hregf, hreg]) fun h => ?_
  rw [encode_rdpOf] at h
  exact hv ((BitVec.append_right_inj _).mp h)

end Sys2Proof
end

section
/-! PROOFS. What NOP, WRP and RDP do to the state, and what their words do one after another (R101 to R113). -/

namespace Sys2Proof.Machine

/-- Settles O10: NOP is the one command with OP = 0, and it has one word. -/
theorem nopChangesNothing : Obligations.NopChangesNothing :=
  ⟨decode_nopWord, fun s => (exec_eq_next_iff .nop s s).mpr .nop, fun p _ => decode_op_zero_of_ne_zero p⟩

/-- Settles O11: the words are the encoder's, and each command's effect is one register's clamped write. -/
theorem wrpOfMixNoiseDensityStoresTheClampedOperand : Obligations.WrpOfMixNoiseDensityStoresTheClampedOperand := by
  intro imm s
  obtain ⟨hmix, hmix'⟩ := decode_ctrlWord (i := .wrpMix imm) rfl
  obtain ⟨hnoise, hnoise'⟩ := decode_ctrlWord (i := .wrpNoise imm) rfl
  obtain ⟨hdensity, hdensity'⟩ := decode_ctrlWord (i := .wrpDensity imm) rfl
  exact ⟨⟨hmix, hmix', _, (exec_eq_next_iff ..).mpr (.wrpMix imm), clampMix_toNat _, rfl⟩,
    ⟨hnoise, hnoise', _, (exec_eq_next_iff ..).mpr (.wrpNoise imm), clampNoise_toNat _, rfl⟩,
    ⟨hdensity, hdensity', _, (exec_eq_next_iff ..).mpr (.wrpDensity imm), clampDensity_toNat _, rfl⟩⟩

/-! ### RDP -/

/-- An RDP records its register's value and changes nothing else (R104). -/
theorem exec_rdpOf (r : Reg) (s : State) :
    exec (rdpOf r) s = .next { s with events := s.events ++ [.resp (readReg r s)] } :=
  (exec_eq_next_iff ..).mpr (.rdp r)

/-- What R105 to R109 ask of a register beyond what every RDP does: the number it reads as, and that number's range. -/
theorem rdpRule_of_readReg (r : Reg) {value lo hi : State → Nat} (hvalue : ∀ s, (readReg r s).toNat = value s)
    (hrange : ∀ s : State, s.LegalParams → lo s ≤ value s ∧ value s ≤ hi s) :
    RdpRule (rdpByte r) (rdpOf r) value lo hi := by
  obtain ⟨hctrl, hperiod, hother⟩ := decode_rdpByte r
  exact ⟨hctrl, hperiod, hother, fun s => ⟨readReg r s, hvalue s, exec_rdpOf r s⟩, hrange⟩

/-- Settles O14: each register reads as its value, and legal registers are in range (R30). -/
theorem rdpRespondsWithTheParameter : Obligations.RdpRespondsWithTheParameter := by
  have hread := readReg_toNat
  simp only [forall_and] at hread
  obtain ⟨rmix, rnoise, rdensity, rfeedback, rdelay, -⟩ := hread
  refine ⟨rdpRule_of_readReg .mix rmix ?mix, rdpRule_of_readReg .noise rnoise ?noise,
    rdpRule_of_readReg .density rdensity ?density, rdpRule_of_readReg .feedback rfeedback ?feedback,
    rdpRule_of_readReg .delay rdelay ?delay⟩
  all_goals rintro s ⟨hmix, hnoise, hdensity, hfeedback, hdelay, hdelay', -⟩
  case mix => exact ⟨Nat.zero_le _, hmix⟩
  case noise => exact ⟨Nat.zero_le _, hnoise⟩
  case density => exact ⟨Nat.zero_le _, hdensity⟩
  case feedback => exact ⟨Nat.zero_le _, hfeedback⟩
  case delay => exact ⟨hdelay, hdelay'⟩

/-! ### The fields of STATUS under masks -/

/-- A field that is zero stays zero under its mask. -/
theorem and_fieldMask_eq_zero {st : BitVec 16} {a n : Nat} (h : st.extractLsb' a n = 0#n) :
    st &&& ((BitVec.allOnes n).setWidth 16 <<< a) = 0#16 := by
  apply BitVec.eq_of_getLsbD_eq
  intro i hi
  by_cases hin : a ≤ i ∧ i - a < n
  · obtain ⟨hai, hlt⟩ := hin
    have hbit : st.getLsbD i = false := by
      simpa [hlt, Nat.add_sub_cancel' hai] using congrArg (·.getLsbD (i - a)) h
    simp [hbit]
  · rw [not_and_or, not_le, not_lt] at hin
    obtain hia | hni := hin
    · simp [hia]
    · simp [hni]

/-- The reserved bits of STATUS, 3 and 15:7, under their mask (R28). -/
theorem status_and_reservedMask {st : BitVec 16} (h : statusReserved st = 0#10) : st &&& 0xFF88#16 = 0#16 := by
  have hhigh : st.extractLsb' 7 9 = 0#9 := BitVec.extractLsb'_append_eq_left.symm.trans (congrArg (·.extractLsb' 1 9) h)
  have hlow : st.extractLsb' 3 1 = 0#1 := BitVec.extractLsb'_append_eq_right.symm.trans (congrArg (·.extractLsb' 0 1) h)
  calc st &&& 0xFF88#16 = st &&& (0xFF80#16 ||| 0x0008#16) := rfl
    _ = st &&& 0xFF80#16 ||| st &&& 0x0008#16 := BitVec.and_or_distrib_left
    _ = 0#16 ||| 0#16 := congrArg₂ (· ||| ·) (and_fieldMask_eq_zero hhigh) (and_fieldMask_eq_zero hlow)
    _ = 0#16 := BitVec.or_zero

/-- ILL is bit 2 of STATUS (R28). -/
theorem statusILL_eq_false_of_and {st : BitVec 16} (h : st &&& 0x0004#16 = 0#16) : statusILL st = false := by
  simpa [statusILL] using congrArg (·.getLsbD 2) h

/-! ### RDP of STATUS and ID -/

/-- Settles O15: the masks are those of the reserved bits, ILL and ILLC. -/
theorem rdpStatusRespondsWithStatus : Obligations.RdpStatusRespondsWithStatus := by
  obtain ⟨hctrl, hperiod, hother⟩ := decode_rdpByte .status
  refine ⟨hctrl, hperiod, hother, fun s => ⟨exec_rdpOf .status s, ?_⟩⟩
  rintro ⟨hres, hcause, -⟩
  exact ⟨status_and_reservedMask hres, fun hill => and_fieldMask_eq_zero (hcause (statusILL_eq_false_of_and hill))⟩

/-- Settles O16: ID reads as a constant, and it has no WRP row. -/
theorem rdpIdRespondsWithTheConstant : Obligations.RdpIdRespondsWithTheConstant := by
  obtain ⟨hctrl, hperiod, hother⟩ := decode_rdpByte .id
  refine ⟨hctrl, hperiod, hother, fun imm => ?_, exec_rdpOf .id⟩
  exact (decode_wrpWord rfl .id imm).trans (decodeWrp_of_not_isParam rfl imm)

/-! ### RDPs one after another -/

/-- The history is no readable register (R76). -/
theorem readReg_respond (r : Reg) (v : Half) (s : State) : readReg r (respond v s) = readReg r s := by
  cases r <;> rfl

theorem applyWord_rdp (r : Reg) (s : State) :
    applyWord .ctrl (encode (rdpOf r)) s = .next (respond (readReg r s) s) := by
  rw [encode_rdpOf, applyWord_of_legal (decode_rdpByte r).1]
  exact exec_rdpOf r s

/-- Settles O17, by induction on the reads: a response leaves what the later ones read. -/
theorem responsesLeaveInTheOrderOfTheReads : Obligations.ResponsesLeaveInTheOrderOfTheReads := by
  intro rs s
  induction rs generalizing s with
  | nil => simp [applyAll]
  | cons r rs ih =>
    rw [List.map_cons, applyAll_cons (applyWord_rdp r s), ih]
    simp only [readReg_respond]
    simp [respond_eq]

/-! ### The last write of every parameter (R113) -/

theorem storesOperand_delay : StoresOperand delayOperand (fun v => min (max v 1) 300) (·.delay.toNat) where
  command s i t heff := by
    cases heff with
    | wrpDelay imm => exact clampDelay_toNat _
    | rdp r => cases r <;> rfl
    | proc => rw [procState_eq]; rfl
    | _ => rfl
  illegal _ _ := rfl

/-- A word leaves the build parameter, and FEEDBACK holds the clamp of the operand it writes, if it writes one (R175). -/
theorem WordEffect.feedback {p : Port} {w : Word} {s t : State} (h : WordEffect p w s t) :
    t.fbMax = s.fbMax ∧
      t.feedback.toNat = storedOr (min · s.fbMax.toNat) s.feedback.toNat (writtenBy feedbackOperand (p, w)) := by
  cases h with
  | illegal hdec => simp [writtenBy, hdec, storedOr, raiseIllegal_eq]
  | command hdec heff =>
    obtain ⟨hbuild, -⟩ := heff.outside_frame
    refine ⟨hbuild, ?_⟩
    simp only [writtenBy, hdec]
    cases heff with
    | wrpFeedback imm => exact clampFeedback_toNat s.fbMax _
    | rdp r => cases r <;> rfl
    | proc => rw [procState_eq]; rfl
    | _ => rfl

/-- FEEDBACK after any merged order. It is no `StoresOperand`: its clamp is the build's, which every word leaves. -/
theorem applyAll_feedback {m : List (Port × Word)} {s t : State} (hall : applyAll m s = .next t) :
    t.feedback.toNat = storedOr (min · s.fbMax.toNat) s.feedback.toNat (lastWrite feedbackOperand m) := by
  induction m generalizing s with
  | nil => cases hall; rfl
  | cons q m ih =>
    obtain ⟨u, happly, heff⟩ := applyWord_effect q.1 q.2 s
    obtain ⟨hbuild, hfeedback⟩ := heff.feedback
    rw [applyAll_cons happly] at hall
    rw [ih hall, hbuild, hfeedback, lastWrite_cons, storedOr_or]

/-- Settles O18: each word of the order stores what it writes, so the last write stands. -/
theorem lastWriteWins : Obligations.LastWriteWins := by
  intro m s
  obtain ⟨t, hall⟩ := applyAll_completes m s
  exact ⟨t, hall, storesOperand_mix.applyAll hall, storesOperand_noise.applyAll hall, storesOperand_density.applyAll hall,
    applyAll_feedback hall, storesOperand_delay.applyAll hall⟩

end Sys2Proof.Machine
end

section
/-! PROOFS. The crush grid, the quantizer and the noise term: the facts about each step of DEGRADE (R132 to R136). -/

namespace Sys2Proof.Machine

/-! ### The crush grid (R133) -/

/-- Settles O29: without its clamp the depth is a step function of NOISE, one row of the table for each ten. -/
theorem crushDepthFollowsTheTable : Obligations.CrushDepthFollowsTheTable := by
  intro noise h0 h60
  have hbits := crushBits_of_legal noise h0 h60
  refine ⟨by rw [hbits, Int.fdiv_eq_ediv_of_nonneg noise (by decide)], ?_⟩
  have row : ∀ q : Int, noise / 10 = q → crushBits noise = 8 - q := fun q hq => by rw [hbits, hq]
  unfold crushShift
  split_ifs
  · rw [row 0 (by omega)]; rfl
  · rw [row 1 (by omega)]; rfl
  · rw [row 2 (by omega)]; rfl
  · rw [row 3 (by omega)]; rfl
  · rw [row 4 (by omega)]; rfl
  · rw [row 5 (by omega)]; rfl
  · rw [row 6 (by omega)]; rfl

theorem gridStep_pos (noise : Int) : (0 : Int) < 2 ^ crushShift noise := pow_pos two_pos _

/-- The ends of the sample range, -32768 and one past 32767, lie on every grid. -/
theorem gridStep_dvd_sampleEnd (noise : Int) : (2 : Int) ^ crushShift noise ∣ 32768 := by
  have hle : crushShift noise ≤ 15 := by have := crushShift_mem noise; omega
  exact pow_dvd_pow 2 hle

/-- More noise comes with a coarser grid: the largest noise term, 32767·noise/100, and the topmost grid point together stay at
or below 48004 in every row of the table. -/
theorem noise_le_gridStep {noise : Int} (h0 : 0 ≤ noise) (h60 : noise ≤ 60) :
    32767 * noise < 100 * (48004 - (32768 - 2 ^ crushShift noise) + 1) := by
  obtain ⟨-, hrow⟩ := crushDepthFollowsTheTable noise h0 h60
  split_ifs at hrow <;> simp only [Prod.mk.injEq] at hrow <;> obtain ⟨-, -, -, hstep⟩ := hrow <;> omega

/-! ### The quantizer (R134) -/

theorem crush_dvd (noise x : Int) : (2 : Int) ^ crushShift noise ∣ crush noise x := Dvd.intro_left _ rfl

/-- The floor to the grid: the sample lies in the cell that starts at its crushed value. -/
theorem crush_spec (noise x : Int) : crush noise x ≤ x ∧ x < crush noise x + 2 ^ crushShift noise := by
  have h := floorDiv_spec x _ (gridStep_pos noise)
  rwa [add_one_mul] at h

theorem crush_eq_fdiv (noise x : Int) : crush noise x = Int.fdiv x (2 ^ crushShift noise) * 2 ^ crushShift noise := by
  rw [crush, floorDiv_eq_fdiv x _ (gridStep_pos noise)]

theorem crush_eq_self_iff (noise x : Int) : crush noise x = x ↔ (2 : Int) ^ crushShift noise ∣ x :=
  ⟨fun h => h ▸ crush_dvd noise x, Int.ediv_mul_cancel⟩

/-- A grid point below another is a whole step below it. -/
theorem add_gridStep_le {noise a b : Int} (ha : (2 : Int) ^ crushShift noise ∣ a) (hb : (2 : Int) ^ crushShift noise ∣ b)
    (h : a < b) : a + 2 ^ crushShift noise ≤ b := by
  have := Int.le_of_dvd (Int.sub_pos_of_lt h) (dvd_sub hb ha)
  omega

/-- Crushing stays in the sample range, since both ends of the range lie on the grid. -/
theorem crush_mem (noise : Int) {x : Int} (h1 : -32768 ≤ x) (h2 : x ≤ 32767) :
    -32768 ≤ crush noise x ∧ crush noise x ≤ 32768 - 2 ^ crushShift noise := by
  obtain ⟨hle, hlt⟩ := crush_spec noise x
  have hend := gridStep_dvd_sampleEnd noise
  have hdvd := crush_dvd noise x
  have hlow := add_gridStep_le (dvd_neg.mpr hend) (dvd_add hdvd (dvd_refl _)) (by omega)
  have hhigh := add_gridStep_le hdvd hend (by omega)
  omega

/-- In two's complement crushing is an arithmetic shift right, then left. -/
theorem ofInt_crush_toInt (noise : Int) (v : BitVec 16) :
    BitVec.ofInt 16 (crush noise v.toInt) = (v.sshiftRight (crushShift noise)) <<< crushShift noise := by
  have hshift : crush noise v.toInt = (v.sshiftRight (crushShift noise)).toInt * ((2 ^ crushShift noise : Nat) : Int) := by
    rw [BitVec.toInt_sshiftRight, Int.shiftRight_eq_div_pow]
    simp [crush, floorDiv]
  have hstep : BitVec.ofNat 16 (2 ^ crushShift noise) = BitVec.twoPow 16 (crushShift noise) :=
    BitVec.eq_of_toNat_eq (BitVec.toNat_twoPow 16 _).symm
  rw [hshift, BitVec.ofInt_mul, BitVec.ofInt_toInt, BitVec.ofInt_natCast, hstep, BitVec.mul_twoPow_eq_shiftLeft]

/-- Shifting right and left again clears the low bits and keeps the others. -/
theorem getLsbD_sshiftRight_shiftLeft {w : Nat} (v : BitVec w) (k i : Nat) :
    ((v.sshiftRight k) <<< k).getLsbD i = (decide (k ≤ i) && v.getLsbD i) := by
  rw [BitVec.getLsbD_shiftLeft, BitVec.getLsbD_sshiftRight]
  by_cases hk : k ≤ i
  · by_cases hi : i < w
    · have hlow : ¬ w ≤ i - k := by omega
      simp [hk, hi, hlow, Nat.add_sub_cancel' hk]
    · simp [hi, BitVec.getLsbD_of_ge v i (by omega)]
  · simp [hk, Nat.lt_of_not_le hk]

/-! ### The noise term (R135) -/

theorem noiseTerm_spec (noise u : Int) : 100 * noiseTerm noise u ≤ u * noise ∧ u * noise < 100 * (noiseTerm noise u + 1) := by
  have h := floorDiv_spec (u * noise) 100 (by decide)
  rwa [mul_comm, mul_comm _ 100] at h

theorem noiseTerm_eq_zero {noise u : Int} (h : noise = 0 ∨ u = 0) : noiseTerm noise u = 0 := by
  have hprod : u * noise = 0 := mul_eq_zero.mpr h.symm
  rw [noiseTerm, hprod]; rfl

/-- The product of a draw and a legal NOISE lies between those of the extreme draws. -/
theorem draw_mul_noise_mem {noise u : Int} (h0 : 0 ≤ noise) (h1 : -32768 ≤ u) (h2 : u ≤ 32767) :
    -32768 * noise ≤ u * noise ∧ u * noise ≤ 32767 * noise :=
  ⟨mul_le_mul_of_nonneg_right h1 h0, mul_le_mul_of_nonneg_right h2 h0⟩

/-! ### The fired lane (R132, R136) -/

theorem degrade_of_le {density d : Int} (h : density ≤ d) (x noise u : Int) : degrade x noise density d u = x := if_pos h

theorem degrade_of_lt {density d : Int} (h : d < density) (x noise u : Int) :
    degrade x noise density d u = clipSample (crush noise x + noiseTerm noise u) := if_neg (not_le.mpr h)

/-- Over all legal arguments the sum before the clip fits in 17 signed bits (R136). -/
theorem crush_add_noiseTerm_mem {x noise u : Int} (hx1 : -32768 ≤ x) (hx2 : x ≤ 32767) (hn1 : 0 ≤ noise) (hn2 : noise ≤ 60)
    (hu1 : -32768 ≤ u) (hu2 : u ≤ 32767) :
    -52429 ≤ crush noise x + noiseTerm noise u ∧ crush noise x + noiseTerm noise u ≤ 48004 := by
  obtain ⟨hc1, hc2⟩ := crush_mem noise hx1 hx2
  obtain ⟨ht1, ht2⟩ := noiseTerm_spec noise u
  obtain ⟨hp1, hp2⟩ := draw_mul_noise_mem hn1 hu1 hu2
  have hgrid := noise_le_gridStep hn1 hn2
  constructor
  · omega
  · omega

/-- The clip returns a sample for the sample itself, and at each end of the range for what lies beyond it. -/
theorem clipSample_eq_iff {x : Int} (h1 : -32768 ≤ x) (h2 : x ≤ 32767) (y : Int) :
    clipSample y = x ↔ y = x ∨ (x = -32768 ∧ y ≤ -32768) ∨ (x = 32767 ∧ 32767 ≤ y) := by
  unfold clipSample clampInt
  omega

/-- A fired lane returns its sample exactly when the noise makes up what crushing took, or the clip restores an end of the
range (R139). -/
theorem degrade_eq_self_iff {x noise density d u : Int} (hfire : d < density) (h1 : -32768 ≤ x) (h2 : x ≤ 32767) :
    degrade x noise density d u = x ↔ noiseTerm noise u = x - crush noise x ∨
      (x = -32768 ∧ noiseTerm noise u ≤ 0) ∨ (x = 32767 ∧ 32767 ≤ crush noise x + noiseTerm noise u) := by
  have hlowEnd : x = -32768 → crush noise x = -32768 := by
    have := crush_mem noise h1 h2
    have := crush_spec noise x
    omega
  rw [degrade_of_lt hfire, clipSample_eq_iff h1 h2]
  omega

end Sys2Proof.Machine
end

section
/-! PROOFS. DEGRADE: how many draws fire, and the laws of its steps and of the whole function (R132 to R139). -/

namespace Sys2Proof.Machine

/-- Settles O28: the draws below k are counted by Mathlib; each draw decides its lane alone. -/
theorem densityFiresThatManyDraws : Obligations.DensityFiresThatManyDraws := by
  intro k hk
  refine ⟨Fin.card_filter_val_lt.trans (min_eq_right hk), fun d x noise u => ⟨fun h => ?_, fun h => ?_⟩⟩
  · exact degrade_of_lt (Int.ofNat_lt.mpr h) x noise u
  · exact degrade_of_le (Int.ofNat_le.mpr h) x noise u

/-- Settles O30: the floor's laws at the grid spacing, which divides the ends of the sample range, and the two shifts. -/
theorem crushIsTheFloorToTheGrid : Obligations.CrushIsTheFloorToTheGrid := by
  intro noise v _ _
  obtain ⟨hv1, hv2⟩ := sext16_mem v
  obtain ⟨hle, hlt⟩ := crush_spec noise v.toInt
  obtain ⟨hlow, hhigh⟩ := crush_mem noise hv1 hv2
  refine ⟨crush_eq_fdiv noise _, hle, by omega, crush_eq_self_iff noise _, hlow, hhigh, ofInt_crush_toInt noise v, fun i => ?_⟩
  rw [ofInt_crush_toInt, getLsbD_sshiftRight_shiftLeft]

/-- Settles O31: the ranges follow from the two inequalities of the floor. -/
theorem noiseTermIsTheFlooredProduct : Obligations.NoiseTermIsTheFlooredProduct := by
  refine ⟨noiseTerm_spec, fun _ _ => noiseTerm_eq_zero, fun u h1 h2 => ?_, by decide⟩
  have h60 := noiseTerm_spec 60 u
  have h20 := noiseTerm_spec 20 u
  omega

/-- Settles O32: the noise term grows with NOISE while the topmost grid point falls. -/
theorem firedLaneIsTheClippedSum : Obligations.FiredLaneIsTheClippedSum := by
  refine ⟨fun x noise density d u hx1 hx2 hn1 hn2 hu1 hu2 hfire => ?_, by decide⟩
  obtain ⟨hlow, hhigh⟩ := crush_add_noiseTerm_mem hx1 hx2 hn1 hn2 hu1 hu2
  exact ⟨hlow, hhigh, degrade_of_lt hfire x noise u⟩

/-- At NOISE = 0 a fired lane is its crushed sample: there is no noise, and the clip does not bind (R138). -/
theorem degrade_of_noise_zero {x density d : Int} (hfire : d < density) (h1 : -32768 ≤ x) (h2 : x ≤ 32767) (u : Int) :
    degrade x 0 density d u = crush 0 x := by
  obtain ⟨hlow, -⟩ := crush_mem 0 h1 h2
  obtain ⟨hle, -⟩ := crush_spec 0 x
  rw [degrade_of_lt hfire, noiseTerm_eq_zero (.inl rfl), add_zero, clipSample_of_mem _ hlow (hle.trans h2)]

/-- Settles O33: which side of the density the draw falls on, and for the grid cell that only the crushed sample enters. -/
theorem degradeLaws : Obligations.DegradeLaws := by
  intro x noise density d u hx1 hx2 _ _ _ _ hd1 hd2 _ _
  refine ⟨degrade_of_le hd1 x noise u, degrade_of_lt (by omega) x noise u, fun hfire => ?noiseZero,
    degrade_mem x noise density d u hx1 hx2, fun hfire x' hcell => ?cell, fun h => degrade_of_le h x noise u⟩
  case noiseZero => exact (degrade_of_noise_zero hfire hx1 hx2 u).trans (crush_eq_fdiv 0 x)
  case cell =>
    have hcrush : crush noise x' = crush noise x := by rw [crush_eq_fdiv, crush_eq_fdiv, hcell]
    rw [degrade_of_lt hfire, degrade_of_lt hfire, hcrush]

/-- Settles O34: the cases (a) to (d) are the ways in which the clip of the sum is the sample; (a) is one of (b). -/
theorem firedLaneMayReturnItsInput : Obligations.FiredLaneMayReturnItsInput := by
  refine ⟨fun x noise density d u hx1 hx2 _ _ _ _ hfire => ?_, by decide⟩
  have hself := degrade_eq_self_iff (noise := noise) (u := u) hfire hx1 hx2
  refine ⟨by rw [degrade_of_lt hfire]; rfl, fun hgrid hzero => hself.mpr (.inl ?_), fun h => hself.mpr (.inl h),
    fun hx h => hself.mpr (.inr (.inl ⟨hx, h⟩)), fun hx h => hself.mpr (.inr (.inr ⟨hx, h⟩)), hself.mp⟩
  rw [hzero, (crush_eq_self_iff noise x).mpr hgrid, sub_self]

end Sys2Proof.Machine
end

section
/-! PROOFS. The crossfade: its exact weighted sum, and MIXLANE as the floor of that sum (R157 to R159, R163, R168). -/

namespace Sys2Proof.Machine

/-- The exact weighted sum of R158, in units of 1/32768 of a sample. -/
def weightedSum (c x m : Int) : Int := c * (32768 - m) + x * m

/-- MIXLANE rounds the weighted sum once and clamps it (R158, R159). -/
theorem mixLane_eq_clip (c x m : Int) : mixLane c x m = clipSample (floorDiv (weightedSum c x m) 32768) := rfl

/-- A weighted mean lies in every interval that holds both its arguments. -/
theorem weightedSum_mem {c x m lo hi : Int} (hc1 : lo ≤ c) (hc2 : c ≤ hi) (hx1 : lo ≤ x) (hx2 : x ≤ hi) (hm1 : 0 ≤ m)
    (hm2 : m ≤ 32768) : lo * 32768 ≤ weightedSum c x m ∧ weightedSum c x m ≤ hi * 32768 := by
  have hw : 0 ≤ 32768 - m := Int.sub_nonneg_of_le hm2
  have hsplit (a : Int) : a * 32768 = a * (32768 - m) + a * m := by ring
  rw [hsplit lo, hsplit hi]
  exact ⟨add_le_add (mul_le_mul_of_nonneg_right hc1 hw) (mul_le_mul_of_nonneg_right hx1 hm1),
    add_le_add (mul_le_mul_of_nonneg_right hc2 hw) (mul_le_mul_of_nonneg_right hx2 hm1)⟩

/-- The ends of such an interval are integers, so rounding the mean down does not leave it (R159). -/
theorem floorDiv_weightedSum_mem {c x m lo hi : Int} (hc1 : lo ≤ c) (hc2 : c ≤ hi) (hx1 : lo ≤ x) (hx2 : x ≤ hi)
    (hm1 : 0 ≤ m) (hm2 : m ≤ 32768) :
    lo ≤ floorDiv (weightedSum c x m) 32768 ∧ floorDiv (weightedSum c x m) 32768 ≤ hi := by
  have hsum := weightedSum_mem hc1 hc2 hx1 hx2 hm1 hm2
  have hfloor := floorDiv_spec (weightedSum c x m) 32768 (by decide)
  omega

section
variable {c x m : Int} (hc1 : -32768 ≤ c) (hc2 : c ≤ 32767) (hx1 : -32768 ≤ x) (hx2 : x ≤ 32767) (hm1 : 0 ≤ m)
  (hm2 : m ≤ 32768)
include hc1 hc2 hx1 hx2 hm1 hm2

/-- Over legal samples and weights the clamp of MIXLANE does not bind (R159). -/
theorem mixLane_eq_floorDiv : mixLane c x m = floorDiv (weightedSum c x m) 32768 := by
  obtain ⟨hlow, hhigh⟩ := floorDiv_weightedSum_mem hc1 hc2 hx1 hx2 hm1 hm2
  rw [mixLane_eq_clip, clipSample_of_mem _ hlow hhigh]

/-- MIXLANE lies in every interval that holds the two samples (R163). -/
theorem mixLane_mem {lo hi : Int} (hlc : lo ≤ c) (hch : c ≤ hi) (hlx : lo ≤ x) (hxh : x ≤ hi) :
    lo ≤ mixLane c x m ∧ mixLane c x m ≤ hi := by
  rw [mixLane_eq_floorDiv hc1 hc2 hx1 hx2 hm1 hm2]
  exact floorDiv_weightedSum_mem hlc hch hlx hxh hm1 hm2

/-- MIXLANE lies between the two samples (R163). -/
theorem mixLane_between : min c x ≤ mixLane c x m ∧ mixLane c x m ≤ max c x :=
  mixLane_mem hc1 hc2 hx1 hx2 hm1 hm2 (min_le_left c x) (le_max_left c x) (min_le_right c x) (le_max_right c x)

end

/-- Settles O25: at the ends of the weight one sample is left, and a value between c and c is c. -/
theorem mixLaws : Obligations.MixLaws := by
  intro c x m hc1 hc2 hx1 hx2 hm1 hm2
  refine ⟨mixLane_zero c x hc1 hc2, mixLane_one c x hx1 hx2, fun noise d u hd => ?dirty, ?same,
    mixLane_between hc1 hc2 hx1 hx2 hm1 hm2⟩
  case dirty => rw [degrade_of_le hd, mixLane_one c x hx1 hx2]
  case same =>
    obtain ⟨hlow, hhigh⟩ := mixLane_mem hc1 hc2 hc1 hc2 hm1 hm2 le_rfl le_rfl le_rfl le_rfl
    exact le_antisymm hhigh hlow

/-- Settles O26: MIXLANE is the floor of the weighted sum, and it lies between the samples. -/
theorem mixClampNeverBinds : Obligations.MixClampNeverBinds := by
  intro c x m hc1 hc2 hx1 hx2 hm1 hm2
  have hfloor : mixLane c x m = Int.fdiv (weightedSum c x m) 32768 :=
    (mixLane_eq_floorDiv hc1 hc2 hx1 hx2 hm1 hm2).trans (floorDiv_eq_fdiv _ _ (by decide))
  obtain ⟨hlow, hhigh⟩ := mixLane_between hc1 hc2 hx1 hx2 hm1 hm2
  exact ⟨hlow.trans_eq hfloor, hfloor.symm.trans_le hhigh, hfloor⟩

/-- Settles O27: the two inequalities of the floor, and the sum of two samples of at most 2^15 in size. -/
theorem mixIsTheFloorOfTheWeightedSum : Obligations.MixIsTheFloorOfTheWeightedSum := by
  intro c x m hc1 hc2 hx1 hx2 hm1 hm2
  obtain ⟨hle, hlt⟩ := floorDiv_spec (weightedSum c x m) 32768 (by decide)
  rw [← mixLane_eq_floorDiv hc1 hc2 hx1 hx2 hm1 hm2, mul_comm] at hle hlt
  obtain ⟨hlow, hhigh⟩ := weightedSum_mem (hi := 32768) hc1 (by omega) hx1 (by omega) hm1 hm2
  exact ⟨hle, hlt, abs_le.mpr ⟨hlow, hhigh⟩⟩

/-- The finest grid has a spacing of 2^7 (R133). -/
theorem le_gridStep (noise : Int) : (128 : Int) ≤ 2 ^ crushShift noise := by
  obtain ⟨hshift, -⟩ := crushShift_mem noise
  exact pow_le_pow_right₀ (by decide : (1 : Int) ≤ 2) hshift

/-- A sample has 16 bits and crushing clears at least 7 of them, so its grid cell is numbered in 9 signed bits (R168). -/
theorem gridCell_mem (noise : Int) {x : Int} (h1 : -32768 ≤ x) (h2 : x ≤ 32767) :
    -256 ≤ Int.fdiv x (2 ^ crushShift noise) ∧ Int.fdiv x (2 ^ crushShift noise) ≤ 255 := by
  have hstep := le_gridStep noise
  rw [Int.fdiv_eq_ediv_of_nonneg x (gridStep_pos noise).le]
  constructor
  · rw [Int.le_ediv_iff_mul_le (gridStep_pos noise)]
    omega
  · rw [← Int.lt_add_one_iff, Int.ediv_lt_iff_lt_mul (gridStep_pos noise)]
    omega

/-- Settles O35: each row of the table is the range lemma of its quantity. -/
theorem arithmeticStaysInItsRanges : Obligations.ArithmeticStaysInItsRanges := by
  intro x noise u c m hx1 hx2 hn1 hn2 hu1 hu2 hc1 hc2 hm1 hm2
  obtain ⟨hcrush1, hcrush2⟩ := crush_mem noise hx1 hx2
  have hstep := le_gridStep noise
  obtain ⟨hprod1, hprod2⟩ := draw_mul_noise_mem hn1 hu1 hu2
  obtain ⟨hterm1, hterm2⟩ := noiseTerm_spec noise u
  refine ⟨?depth, crushShift_mem noise, gridCell_mem noise hx1 hx2, ⟨hcrush1, by omega⟩, by omega, by omega,
    weightedSum_mem hc1 hc2 hx1 hx2 hm1 hm2⟩
  case depth =>
    rw [Int.fdiv_eq_ediv_of_nonneg noise (by decide)]
    omega

/-- Settles O24: a lane reads its own lane of the sources and its own draw (R157). -/
theorem laneDependsOnItsOwnLaneOnly : Obligations.LaneDependsOnItsOwnLaneOnly := by
  intro snap clean clean' dirty dirty' draws draws' i hi hclean hdirty hdraws
  rw [mixBlock_getElem, mixBlock_getElem]
  simp only [outLane, memRead, Fin.getElem_fin, hclean, hdirty, hdraws]

end Sys2Proof.Machine
end

section
/-! PROOFS. PROC: what each channel records (R151 to R156), what it depends on (R152, R155), and that every acquired buffer is
released (R161). -/

namespace Sys2Proof.Machine

/-! ### One channel -/

section
variable {inp : ChannelInput} {clean dirty : Block} (hclean : inp.clean = some clean) (hdirty : inp.dirty = some dirty)
include hclean hdirty

theorem channelReady_of_ready : channelReady inp = true := by
  simp [channelReady, hclean, hdirty]

theorem channelEvents_of_ready (snap : Snapshot) (ch : Channel) :
    channelEvents snap ch inp =
      [.acq .clean ch, .acq .dirty ch, .emit ch (mixBlock snap clean dirty inp.draws), .rel .clean ch, .rel .dirty ch] := by
  simp [channelEvents, hclean, hdirty]

end

theorem channelReady_of_missing {inp : ChannelInput} (h : inp.clean = none ∨ inp.dirty = none) :
    channelReady inp = false := by
  obtain h | h := h <;> simp [channelReady, h]

theorem channelEvents_of_missing {inp : ChannelInput} (h : inp.clean = none ∨ inp.dirty = none) (snap : Snapshot)
    (ch : Channel) : channelEvents snap ch inp = [] := by
  obtain h | h := h <;> simp [channelEvents, h]

/-- A channel has both its sides ready or lacks one (R154). -/
theorem ChannelInput.ready_or_missing (inp : ChannelInput) :
    (∃ clean dirty, inp.clean = some clean ∧ inp.dirty = some dirty) ∨ inp.clean = none ∨ inp.dirty = none := by
  cases hclean : inp.clean with
  | none => exact .inr (.inl rfl)
  | some clean => cases hdirty : inp.dirty with
    | none => exact .inr (.inr rfl)
    | some dirty => exact .inl ⟨clean, dirty, rfl, rfl⟩

/-- A channel's events name that channel. -/
theorem channel?_of_mem_channelEvents {snap : Snapshot} {ch : Channel} {inp : ChannelInput} {e : Event}
    (h : e ∈ channelEvents snap ch inp) : e.channel? = some ch := by
  obtain ⟨clean, dirty, hclean, hdirty⟩ | hmissing := inp.ready_or_missing
  · rw [channelEvents_of_ready hclean hdirty] at h
    simp only [List.mem_cons, List.not_mem_nil, or_false] at h
    obtain rfl | rfl | rfl | rfl | rfl := h <;> rfl
  · rw [channelEvents_of_missing hmissing] at h
    cases h

/-- A lane of the emitted block in the words of R157 to R159. -/
theorem mixBlock_lane_toInt (snap : Snapshot) (clean dirty : Block) (draws : DrawBlock) (i : Nat) (h : i < Config.N) :
    ((mixBlock snap clean dirty draws)[i]).toInt =
      max (-32768) (min 32767 (Int.fdiv ((clean[i]).toInt * (32768 - snap.mix.toNat) +
        degrade (dirty[i]).toInt snap.noise.toNat snap.density.toNat (draws[i]).d.val (draws[i]).u.toInt * snap.mix.toNat)
        32768)) := by
  have hlane := sext16_outLane snap clean dirty draws ⟨i, h⟩
  rw [mixLane, floorDiv_eq_fdiv _ _ (by decide)] at hlane
  have hclip (y : Int) : clipSample y = max (-32768) (min 32767 y) := by
    unfold clipSample clampInt
    omega
  rw [mixBlock_getElem]
  exact hlane.trans (hclip _)

/-- The events and the processed bit of a channel are the ones of the pseudocode (R151, R154 to R157). -/
theorem channelOutcome (snap : Snapshot) (ch : Channel) (inp : ChannelInput) :
    ChannelOutcome snap.mix.toNat snap.noise.toNat snap.density.toNat ch inp (channelEvents snap ch inp)
      (channelReady inp) := by
  refine ⟨fun clean dirty hclean hdirty => ⟨channelReady_of_ready hclean hdirty, ?_⟩, fun hmissing =>
    ⟨channelReady_of_missing hmissing, channelEvents_of_missing hmissing snap ch⟩⟩
  exact ⟨mixBlock snap clean dirty inp.draws, mixBlock_lane_toInt snap clean dirty inp.draws,
    channelEvents_of_ready hclean hdirty snap ch⟩

/-! ### Both channels -/

/-- The events of a PROC with these parameters and inputs: the left channel's before the right's (R153). -/
def procEvents (snap : Snapshot) (inp : PeriodInput) : List Event :=
  channelEvents snap .left inp.left ++ channelEvents snap .right inp.right

/-- PROC adds those events, with the parameters it loads at its start (R152). -/
theorem procState_events (s : State) :
    (procState s).events = s.events ++ procEvents ⟨s.mix, s.noise, s.density⟩ (periodInput s) := by
  rw [procState_eq]
  exact List.append_assoc ..

theorem procState_snapshot (s : State) : (procState s).snapshot = ⟨s.mix, s.noise, s.density⟩ := by
  rw [procState_eq]

theorem procState_statusPL (s : State) : statusPL (procState s).status = channelReady (periodInput s).left := by
  rw [procState_eq]
  exact statusPL_setProcessed ..

theorem procState_statusPR (s : State) : statusPR (procState s).status = channelReady (periodInput s).right := by
  rw [procState_eq]
  exact statusPR_setProcessed ..

theorem mem_procEvents_iff (snap : Snapshot) (inp : PeriodInput) (e : Event) :
    e ∈ procEvents snap inp ↔ ∃ ch, e ∈ channelEvents snap ch (inp.channel ch) := by
  rw [procEvents, List.mem_append]
  constructor
  · rintro (h | h)
    · exact ⟨.left, h⟩
    · exact ⟨.right, h⟩
  · rintro ⟨ch, h⟩
    cases ch with
    | left => exact .inl h
    | right => exact .inr h

/-- Settles O20: each channel's events are its outcome, and PL and PR are the only status bits that PROC writes. -/
theorem procFollowsThePseudocode : Obligations.ProcFollowsThePseudocode := by
  intro s
  obtain ⟨hill, hillc, hres⟩ := (CommandEffect.proc (s := s)).illegal_fields_eq
  refine ⟨procState s, _, _, _, _, rfl, channelOutcome ⟨s.mix, s.noise, s.density⟩ .left (periodInput s).left,
    channelOutcome ⟨s.mix, s.noise, s.density⟩ .right (periodInput s).right, ?events, procState_statusPL s,
    procState_statusPR s, hill, hillc, hres, procState_snapshot s, ?inputs, ?frame⟩
  case events => rw [procState_events, procEvents, List.append_assoc]
  case inputs => rw [procState_eq]
  case frame => rw [procState_eq]

/-- PROC sees what the engine presents only through what it does with each channel. -/
theorem procState_congr {s s' : State} (hnext : s'.nextPeriod = s.nextPeriod)
    (hch : ∀ ch u, procChannel ch ((periodInput s').channel ch) u = procChannel ch ((periodInput s).channel ch) u) :
    procState s' = procState s := by
  simp only [procState, hnext, hch]

/-- Settles O21: a channel that lacks a side has no event and no ready bit, whatever else is presented for it. -/
theorem skippedChannelLeavesNoTrace : Obligations.SkippedChannelLeavesNoTrace := by
  intro s inp inp' rest ch hin hmissing hmissing' hothers
  have hperiod := periodInput_cons s inp rest hin
  have hsame : procState { s with engineIn := inp' :: rest } = procState s := by
    refine procState_congr (by simp [State.nextPeriod, hin]) fun c u => ?_
    rw [hperiod, periodInput_cons { s with engineIn := inp' :: rest } inp' rest rfl]
    by_cases hc : c = ch
    · rw [hc, procChannel_skipped _ _ u hmissing, procChannel_skipped _ _ u hmissing']
    · rw [hothers c hc]
  refine ⟨procState s, procEvents ⟨s.mix, s.noise, s.density⟩ inp, rfl, congrArg Host.Outcome.next hsame,
    hperiod ▸ procState_events s, fun e he hch => ?trace, fun hleft => ?pl, fun hright => ?pr⟩
  case trace =>
    obtain ⟨c, hmem⟩ := (mem_procEvents_iff _ inp e).mp he
    obtain rfl : c = ch := Option.some.inj ((channel?_of_mem_channelEvents hmem).symm.trans hch)
    rw [channelEvents_of_missing hmissing] at hmem
    cases hmem
  case pl =>
    subst hleft
    rw [procState_statusPL, hperiod]
    exact channelReady_of_missing hmissing
  case pr =>
    subst hright
    rw [procState_statusPR, hperiod]
    exact channelReady_of_missing hmissing

/-- Settles O22: the events, the two bits and the snapshot are functions of the three registers and the inputs. -/
theorem procReadsOnlyTheSnapshotAndItsInputs : Obligations.ProcReadsOnlyTheSnapshotAndItsInputs := by
  intro s s' hmix hnoise hdensity hinput
  refine ⟨procState s, procState s', _, rfl, rfl, procState_events s, ?_, ?_, ?_, ?_⟩
  · rw [procState_events, hmix, hnoise, hdensity, hinput]
  · rw [procState_statusPL, procState_statusPL, hinput]
  · rw [procState_statusPR, procState_statusPR, hinput]
  · rw [procState_snapshot, procState_snapshot, hmix, hnoise, hdensity]

/-- At MIX = 1.0 and DENSITY = 0 no lane fires, so the block is the dirty one (R163, R138). -/
theorem mixBlock_of_mix_one_of_density_zero (snap : Snapshot) (hmix : snap.mix = 0x8000#16) (hdensity : snap.density = 0#7)
    (clean dirty : Block) (draws : DrawBlock) : mixBlock snap clean dirty draws = dirty := by
  ext i hi : 1
  apply BitVec.eq_of_toInt_eq
  rw [mixBlock_of_mix_one snap hmix, hdensity]
  exact degrade_of_density_zero _ _ _ _

/-- A channel with both sides ready has its mixed block emitted (R160). -/
theorem emit_mem_procState_events {s : State} {ch : Channel} {clean dirty : Block}
    (hclean : ((periodInput s).channel ch).clean = some clean) (hdirty : ((periodInput s).channel ch).dirty = some dirty) :
    Event.emit ch (mixBlock ⟨s.mix, s.noise, s.density⟩ clean dirty ((periodInput s).channel ch).draws) ∈
      (procState s).events := by
  rw [procState_events]
  refine List.mem_append_right _ ((mem_procEvents_iff ..).mpr ⟨ch, ?_⟩)
  rw [channelEvents_of_ready hclean hdirty]
  simp

/-- Settles O23: the block that is emitted is the mixed one, which at either end of MIX is one of the sources. -/
theorem dryAndWetBlocksPassUnchanged : Obligations.DryAndWetBlocksPassUnchanged := by
  refine fun s => ⟨procState s, rfl, fun ch clean dirty hclean hdirty => ?_⟩
  have hemit := emit_mem_procState_events hclean hdirty
  refine ⟨fun hmix => ?dry, fun hmix hdensity => ?wet⟩
  case dry => rwa [mixBlock_of_mix_zero _ hmix] at hemit
  case wet => rwa [mixBlock_of_mix_one_of_density_zero _ hmix hdensity] at hemit

/-! ### Buffers held -/

/-- The buffers held after a history are those held after its later part, from those held after its earlier part. -/
theorem heldAfter_append (es es' : List Event) (held : List (Side × Channel)) :
    heldAfter (es ++ es') held = heldAfter es' (heldAfter es held) := by
  induction es generalizing held with
  | nil => rfl
  | cons e es ih => cases e <;> exact ih _

/-- A channel gives back the two buffers it acquires (R161). -/
theorem heldAfter_channelEvents (snap : Snapshot) (ch : Channel) (inp : ChannelInput) :
    heldAfter (channelEvents snap ch inp) [] = [] := by
  obtain ⟨clean, dirty, hclean, hdirty⟩ | hmissing := inp.ready_or_missing
  · rw [channelEvents_of_ready hclean hdirty]
    simp [heldAfter]
  · rw [channelEvents_of_missing hmissing]
    rfl

theorem heldAfter_procEvents (snap : Snapshot) (inp : PeriodInput) : heldAfter (procEvents snap inp) [] = [] := by
  rw [procEvents, heldAfter_append, heldAfter_channelEvents, heldAfter_channelEvents]

/-- A response is no buffer, and a PROC releases all it acquires. -/
theorem CommandEffect.holdsNoBuffer {s t : State} {i : Instr} (h : CommandEffect s i t) (hs : s.HoldsNoBuffer) :
    t.HoldsNoBuffer := by
  cases h with
  | rdp r => rw [State.HoldsNoBuffer, respond_eq, heldAfter_append, hs]; rfl
  | proc => rw [State.HoldsNoBuffer, procState_events, heldAfter_append, hs, heldAfter_procEvents]
  | _ => exact hs

theorem holdsNoBuffer_keptByMoves : KeptByMoves State.HoldsNoBuffer where
  turns _ _ hs := hs
  waiting _ p _ hs := by cases p <;> exact hs
  level _ _ hs := hs
  reset _ hs := hs
  illegal _ _ hs := hs
  command _ _ _ heff hs := heff.holdsNoBuffer hs

/-- Settles O38: only PROC acquires buffers, and each of its channels releases what it acquired. -/
theorem stepLeavesNoBufferHeld : Obligations.StepLeavesNoBufferHeld :=
  holdsNoBuffer_keptByMoves.step

/-! ### Completion -/

/-- No move of the machine stops it (R203). -/
theorem step_completes (s : State) : ∃ t, step s = .next t := by
  have hmoves : KeptByMoves fun _ => True :=
    { turns := fun _ _ h => h, waiting := fun _ _ _ h => h, level := fun _ _ h => h, reset := fun _ h => h,
      illegal := fun _ _ h => h, command := fun _ _ _ _ h => h }
  obtain ⟨t, hstep, -⟩ := hmoves.step s trivial
  exact ⟨t, hstep⟩

/-- Settles O9: every command has an effect (R167), and so has every move of a step (R203). -/
theorem everyCommandAndStepCompletes : Obligations.EveryCommandAndStepCompletes := by
  refine ⟨fun i s => ?_, step_completes⟩
  obtain ⟨t, hexec, -⟩ := exec_effect i s
  exact ⟨t, hexec⟩

end Sys2Proof.Machine
end

section
/-! PROOFS. The loop parameters FEEDBACK and DELAY and their output ports: what their WRP words store (R175, R176), and the
bound on the loop gain at every point of a run (R179). -/

namespace Sys2Proof.Machine

/-! ### WRP.FEEDBACK and WRP.DELAY -/

/-- FB_MAX has 15 bits, so it is below 1.0 in every build (R7). -/
theorem fbMax_le (s : State) : s.fbMax.toNat ≤ 0x7FFF :=
  Nat.le_of_lt_succ s.fbMax.isLt

/-- Settles O12: the word is the encoder's, its effect is the clamped write, and FB_MAX is below an operand of 1.0. -/
theorem wrpFeedbackStoresTheBoundedGain : Obligations.WrpFeedbackStoresTheBoundedGain := by
  intro imm s
  obtain ⟨hctrl, hperiod⟩ := decode_ctrlWord (i := .wrpFeedback imm) rfl
  have hstored := clampFeedback_toNat s.fbMax (zext16 imm)
  have htop : 0x8000 ≤ imm.toNat → clampFeedback s.fbMax (zext16 imm) = s.fbMax := fun himm =>
    clampFeedback_of_le ((fbMax_le s).trans (Nat.le_of_succ_le himm))
  exact ⟨hctrl, hperiod, _, (exec_eq_next_iff ..).mpr (.wrpFeedback imm), hstored, hstored, htop, rfl⟩

/-- Settles O13: the word is the encoder's, and its effect is the clamped write. -/
theorem wrpDelayStoresTheClampedTime : Obligations.WrpDelayStoresTheClampedTime := by
  intro imm s
  obtain ⟨hctrl, hperiod⟩ := decode_ctrlWord (i := .wrpDelay imm) rfl
  have hstored := clampDelay_toNat (zext16 imm)
  exact ⟨hctrl, hperiod, _, (exec_eq_next_iff ..).mpr (.wrpDelay imm), hstored, hstored, rfl⟩

/-! ### Every run -/

/-- What every move keeps, every run keeps, and every run goes on. -/
theorem KeptByMoves.run {P : State → Prop} (hP : KeptByMoves P) (n : Nat) (s : State) (hs : P s) :
    ∃ t, core.run n s = .next t ∧ P t := by
  induction n generalizing s with
  | zero => exact ⟨s, core_run_zero s, hs⟩
  | succ n ih =>
    obtain ⟨u, hstep, hu⟩ := hP.step s hs
    obtain ⟨t, hrun, ht⟩ := ih u hu
    exact ⟨t, (core_run_succ n s u hstep).trans hrun, ht⟩

theorem KeptByMoves.and {P Q : State → Prop} (hP : KeptByMoves P) (hQ : KeptByMoves Q) :
    KeptByMoves fun s => P s ∧ Q s where
  turns s ts hs := hs.imp (hP.turns s ts) (hQ.turns s ts)
  waiting s p ws hs := hs.imp (hP.waiting s p ws) (hQ.waiting s p ws)
  level s b hs := hs.imp (hP.level s b) (hQ.level s b)
  reset s hs := hs.imp (hP.reset s) (hQ.reset s)
  illegal s c hs := hs.imp (hP.illegal s c) (hQ.illegal s c)
  command s i t heff hs := hs.imp (hP.command s i t heff) (hQ.command s i t heff)

/-- Nothing the machine does changes the build (log entry 5). -/
theorem fbMax_keptByMoves (m : BitVec 15) : KeptByMoves fun s => s.fbMax = m where
  turns _ _ hs := hs
  waiting s p ws hs := (s.withWaiting_fbMax p ws).trans hs
  level _ _ hs := hs
  reset _ hs := hs
  illegal _ _ hs := hs
  command _ _ _ heff hs := by
    obtain ⟨hbuild, -⟩ := heff.outside_frame
    exact hbuild.trans hs

/-- Settles O40: a launch state meets the three invariants, every move keeps them and the build, and the bound on the gain
is one of the legal parameters'. -/
theorem everyRunStaysBounded : Obligations.EveryRunStaysBounded := by
  intro n s hs
  have hkept := (fbMax_keptByMoves s.fbMax).and
    (legalParams_keptByMoves.and (legalStatus_keptByMoves.and holdsNoBuffer_keptByMoves))
  obtain ⟨t, hrun, hbuild, hparams, hstatus, hheld⟩ :=
    hkept.run n s ⟨rfl, hs.legalParams, hs.legalStatus, hs.holdsNoBuffer⟩
  have ⟨_, _, _, hgain, _⟩ := hparams
  exact ⟨t, hrun, rfl, hgain, hbuild, fbMax_le t, hparams, hstatus, hheld⟩

end Sys2Proof.Machine
end

section
/-! PROOFS. Which cause an illegal word gets where several checks refuse it (R78, R194). -/

namespace Sys2Proof

/-- The upper byte of a word leaves the other 24 bits their RSV field (R74). -/
theorem rsvField_append (k : BitVec 8) (v : BitVec 24) : rsvField (k ++ v) = v.extractLsb' 16 8 :=
  BitVec.extractLsb'_append_eq_of_add_le (by decide)

/-- OP = 15 is reserved, whatever the port and the other bits. -/
theorem decode_op_fifteen (p : Port) (v : BitVec 28) : decode p (0xF#4 ++ v) = .illegal .reservedOp := by
  refine decode_of_reservedOp p ?_
  rw [Machine.opField_append]
  rfl

/-- A WRP of register 7 on its own port passes the first two checks, so RSV decides before REG. -/
theorem decode_ctrl_wrp_seven (v : BitVec 24) :
    decode .ctrl (0x17#8 ++ v) =
      if v.extractLsb' 16 8 = 0#8 then .illegal .reservedReg else .illegal .reservedField := by
  obtain ⟨hopf, hregf⟩ := upperByte_fields 0x17#8 v
  have hop : Op.ofField (opField (0x17#8 ++ v)) = some .wrp := by rw [hopf]; rfl
  have hreg : Reg.ofField (regField (0x17#8 ++ v)) = none := by rw [hregf]; rfl
  rw [← rsvField_append 0x17#8 v]
  split_ifs with hrsv
  · exact decode_of_reservedReg hop (.inl rfl) rfl hrsv (absurd rfl) hreg
  · exact decode_of_rsvField_ne_zero hop rfl hrsv

/-- Settles O5: in each word the check named is the first that fails. -/
theorem firstFailingCheckNamesTheCause : Obligations.FirstFailingCheckNamesTheCause :=
  ⟨decode_of_reservedOp .period rfl,
    decode_of_wrongPort (op := .wrp) rfl rfl,
    decode_of_rsvField_ne_zero (op := .wrp) rfl rfl (by decide),
    decode_op_fifteen, Machine.decode_period_wrp, decode_ctrl_wrp_seven⟩

end Sys2Proof
end

section
/-! PROOFS. The illegal-command outcome: what a step on an illegal word does (R191), and what it records (R192). -/

namespace Sys2Proof.Machine

/-- With reset released, the turn of a port takes a waiting illegal word and records its cause. -/
theorem step_of_illegal {s : State} {p : Port} {ts : List Turn} {w : Word} {ws : List Word} {c : Cause}
    (hts : s.turns = .command p :: ts) (hwait : s.waiting p = w :: ws) (hlevel : s.inReset = false)
    (hdec : decode p w = .illegal c) : step s = .next (raiseIllegal c ((s.withTurns ts).withWaiting p ws)) :=
  (step_of_waiting_cons hts hwait hlevel).trans (applyWord_of_illegal hdec _)

/-- Settles O42: the step writes STATUS alone into the state without the turn and the word, and there ILL and ILLC alone. -/
theorem illegalWordIsDiscardedAndRecorded : Obligations.IllegalWordIsDiscardedAndRecorded := by
  intro s p ts w ws c hts hwait hlevel hdec
  have heff : WordEffect p w ((s.withTurns ts).withWaiting p ws) _ := .illegal hdec
  have hstatus : (raiseIllegal c ((s.withTurns ts).withWaiting p ws)).status = recordIllegal s.status c := by
    simp [raiseIllegal_eq]
  refine ⟨_, step_of_illegal hts hwait hlevel hdec, ?turn, ?word, fun q hq => ?others, ?ill, ?illc, ?pl, ?pr, ?res,
    ?frame⟩
  case turn => simp [raiseIllegal_eq]
  case word => simp [heff.waiting_eq, waiting_withWaiting]
  case others => simp [heff.waiting_eq, waiting_withWaiting, hq]
  case ill => rw [hstatus, statusILL_recordIllegal]
  case illc => rw [hstatus, statusILLC_recordIllegal]
  case pl => rw [hstatus, statusPL_recordIllegal]
  case pr => rw [hstatus, statusPR_recordIllegal]
  case res => rw [hstatus, statusReserved_recordIllegal]
  case frame => cases p <;> rfl

/-- The first illegal word raises STATUS by its ILL bit and its cause, at the places of R28. -/
theorem recordIllegal_toNat {st : BitVec 16} (c : Cause) (hill : statusILL st = false) (hillc : statusILLC st = 0#3) :
    (recordIllegal st c).toNat = st.toNat + 4 + 16 * c.code.toNat := by
  have hcode : statusILLC (recordIllegal st c) = c.code := by simp [hill]
  rw [status_toNat (recordIllegal st c), status_toNat st, hcode, statusPL_recordIllegal, statusPR_recordIllegal,
    statusILL_recordIllegal, statusReserved_recordIllegal, hill, hillc]
  simp only [Bool.toNat_true, Bool.toNat_false, BitVec.toNat_zero]
  omega

/-- Settles O43: the word records its cause, and the codes are the numbers of R192. -/
theorem firstIllegalWordRecordsItsCode : Obligations.FirstIllegalWordRecordsItsCode := by
  intro s p w c hdec hill hillc
  refine ⟨_, applyWord_of_illegal hdec s, (recordIllegal_toNat c hill hillc).trans ?_⟩
  cases c <;> rfl

end Sys2Proof.Machine
end

section
/-! PROOFS. Reset: what its two edges do to the state (R210, R212), what only it clears (R211), and the first PROC after it
(R213). -/

namespace Sys2Proof.Machine

/-! ### The two edges and the level between them -/

theorem step_of_assertReset {s : State} {ts : List Turn} (hts : s.turns = .assertReset :: ts) :
    step s = .next ((applyReset (s.withTurns ts)).withReset true) := by
  simp [step, advance, serveTurn, hts]

theorem step_of_releaseReset {s : State} {ts : List Turn} (hts : s.turns = .releaseReset :: ts) :
    step s = .next ((s.withTurns ts).withReset false) := by
  simp [step, advance, serveTurn, hts]

/-- While reset is asserted, the turn of a port drops its oldest word (R212). -/
theorem step_of_waiting_cons_inReset {s : State} {p : Port} {ts : List Turn} {w : Word} {ws : List Word}
    (hts : s.turns = .command p :: ts) (hwait : s.waiting p = w :: ws) (hlevel : s.inReset = true) :
    step s = .next ((s.withTurns ts).withWaiting p ws) := by
  simp [step_of_command hts, servePort, hwait, hlevel]

@[simp] theorem waiting_withReset (s : State) (p : Port) (b : Bool) : (s.withReset b).waiting p = s.waiting p := by
  cases p <;> rfl

/-- Settles O48: the registers are loaded from `State.reset`, and the rest is a frame of the reset. -/
theorem assertedResetRestoresTheRegisters : Obligations.AssertedResetRestoresTheRegisters := by
  intro s ts hts
  exact ⟨_, step_of_assertReset hts, rfl, rfl, rfl, rfl, rfl, rfl, rfl, rfl, rfl, rfl, rfl, rfl, rfl, rfl, rfl⟩

/-- Settles O49: a dropped word and a release are each one step, and the step after a release is that of a released state. -/
theorem wordsDuringResetAreDropped : Obligations.WordsDuringResetAreDropped := by
  refine ⟨fun s p ts w ws hts hwait hlevel => ?dropped, fun s ts hts => ?released, fun s p ts w ws hts hwait => ?applied⟩
  case dropped =>
    exact ⟨_, step_of_waiting_cons_inReset hts hwait hlevel, by simp, by simp [waiting_withWaiting],
      fun q hq => by simp [waiting_withWaiting, hq], withTurns_withWaiting_withPresented s ts p ws⟩
  case released => exact ⟨_, step_of_releaseReset hts, rfl, rfl, rfl⟩
  case applied =>
    refine ⟨_, _, step_of_releaseReset hts, step_of_waiting_cons rfl (by simpa using hwait) rfl, by simp, by simp,
      by simp [waiting_withWaiting], fun q hq => by simp [waiting_withWaiting, hq], ?_⟩
    cases p <;> rfl

/-! ### The sticky bit -/

/-- ILL, once set, is set in `t` too, with the cause that was recorded first (R191, R211). -/
def KeepsFirstCause (s t : State) : Prop :=
  statusILL s.status = true → statusILL t.status = true ∧ statusILLC t.status = statusILLC s.status

theorem keepsFirstCause_of_status_eq {s t : State} (h : t.status = s.status) : KeepsFirstCause s t := fun hill => by
  rw [h]
  exact ⟨hill, rfl⟩

/-- A command leaves ILL and ILLC alone, and an illegal word leaves a cause that stands there. -/
theorem WordEffect.keepsFirstCause {p : Port} {w : Word} {s t : State} (h : WordEffect p w s t) :
    KeepsFirstCause s t := by
  intro hill
  cases h with
  | command _ heff =>
    obtain ⟨hsame, hcause, -⟩ := heff.illegal_fields_eq
    exact ⟨hsame.trans hill, hcause⟩
  | illegal _ => simp [raiseIllegal_eq, hill]

/-- The turn of a port keeps a recorded cause, whether it passes, drops its word or applies it. -/
theorem servePort_keepsFirstCause (p : Port) (s : State) : ∃ t, servePort p s = .next t ∧ KeepsFirstCause s t := by
  obtain ⟨-, hserve⟩ | ⟨w, ws, -, -, hserve⟩ | ⟨w, ws, -, -, hserve⟩ := servePort_cases p s
  · exact ⟨s, hserve, keepsFirstCause_of_status_eq rfl⟩
  · exact ⟨_, hserve, keepsFirstCause_of_status_eq (s.withWaiting_status p ws)⟩
  · obtain ⟨t, happly, heff⟩ := applyWord_effect p w (s.withWaiting p ws)
    have hkept := heff.keepsFirstCause
    rw [KeepsFirstCause, s.withWaiting_status p ws] at hkept
    exact ⟨t, hserve.trans happly, hkept⟩

/-- A step keeps a recorded cause unless it asserts reset, which clears STATUS. -/
theorem step_keepsFirstCause_or_clears (s : State) :
    ∃ t, step s = .next t ∧ (KeepsFirstCause s t ∧ (∀ ts, s.turns ≠ .assertReset :: ts) ∨
      t.status = 0#16 ∧ ∃ ts, s.turns = .assertReset :: ts) := by
  obtain ⟨hts, hstep⟩ | ⟨p, ts, hts, hstep⟩ | ⟨ts, hts, hstep⟩ | ⟨ts, hts, hstep⟩ := step_cases s
  · exact ⟨s, hstep, .inl ⟨keepsFirstCause_of_status_eq rfl, by simp [hts]⟩⟩
  · obtain ⟨t, hserve, hkept⟩ := servePort_keepsFirstCause p (s.withTurns ts)
    exact ⟨t, hstep.trans hserve, .inl ⟨hkept, by simp [hts]⟩⟩
  · exact ⟨_, hstep, .inr ⟨rfl, ts, hts⟩⟩
  · exact ⟨_, hstep, .inl ⟨keepsFirstCause_of_status_eq rfl, by simp [hts]⟩⟩

/-- A channel is processed exactly if both its sides are ready (R154). -/
theorem channelReady_iff (inp : ChannelInput) : channelReady inp = true ↔ inp.clean ≠ none ∧ inp.dirty ≠ none := by
  simp [channelReady, Option.isSome_iff_ne_none]

/-- Settles O41: every step but an assertion of reset keeps the cause, and PROC sets PL and PR to its channels' readiness. -/
theorem illegalFlagIsStickyUntilReset : Obligations.IllegalFlagIsStickyUntilReset := by
  refine ⟨fun s hill => ?sticky, fun s => ⟨procState s, rfl, ?pl, ?pr⟩⟩
  case sticky =>
    obtain ⟨t, hstep, ⟨hkept, hother⟩ | ⟨hclear, hreset⟩⟩ := step_keepsFirstCause_or_clears s
    · exact ⟨t, hstep, fun _ => hkept hill, fun ⟨ts, hts⟩ => absurd hts (hother ts)⟩
    · exact ⟨t, hstep, fun hother => hreset.elim fun ts hts => absurd hts (hother ts), fun _ => hclear⟩
  case pl => rw [procState_statusPL, channelReady_iff]
  case pr => rw [procState_statusPR, channelReady_iff]

/-! ### The first PROC -/

/-- The events of a channel that passes its clean block on unchanged (R156, R163). -/
def dryEvents (ch : Channel) (inp : ChannelInput) : List Event :=
  match inp.clean, inp.dirty with
  | some clean, some _ => [.acq .clean ch, .acq .dirty ch, .emit ch clean, .rel .clean ch, .rel .dirty ch]
  | _, _ => []

/-- At MIX = 0 a processed channel emits its clean block. -/
theorem channelEvents_of_mix_zero {snap : Snapshot} (hmix : snap.mix = 0#16) (ch : Channel) (inp : ChannelInput) :
    channelEvents snap ch inp = dryEvents ch inp := by
  obtain ⟨clean, dirty, hclean, hdirty⟩ | hmissing := inp.ready_or_missing
  · rw [channelEvents_of_ready hclean hdirty, mixBlock_of_mix_zero snap hmix]
    simp [dryEvents, hclean, hdirty]
  · rw [channelEvents_of_missing hmissing]
    obtain h | h := hmissing <;> simp [dryEvents, h]

/-- Settles O50: a launch state has MIX = 0, FEEDBACK = 0 and an empty history. -/
theorem firstProcAfterResetIsDry : Obligations.FirstProcAfterResetIsDry := by
  intro s hs
  obtain ⟨hmix, -, -, hfeedback, -, -, hevents⟩ := hs.registers
  have hgain : (procState s).fbGain = s.feedback := by
    rw [procState_eq]
    rfl
  have hdry : (procState s).events = dryEvents .left (periodInput s).left ++ dryEvents .right (periodInput s).right := by
    rw [procState_events, hevents, List.nil_append, procEvents, channelEvents_of_mix_zero hmix,
      channelEvents_of_mix_zero hmix]
  exact ⟨procState s, rfl, hgain.trans hfeedback, hdry⟩

end Sys2Proof.Machine
end
